-- ==== Sys2Proof/Word.lean ====
section
/-! DEFINITION. The word types of the block: bytes, command words and line levels
(00_scope.md R12, R14). Every value is unsigned and bit 0 is the least significant bit. -/

namespace Sys2Proof

/-- An 8-bit value: a data byte, an address operand, a buffer byte, a response. -/
abbrev Byte := BitVec 8

/-- A 32-bit command word (30_encoding.md R80). -/
abbrev Word := BitVec 32

/-- A line level (00_scope.md R14): `false` is 0 (low), `true` is 1 (high). -/
abbrev Level := Bool

end Sys2Proof
end

