-- ==== Sys2Proof/Syntax.lean ====
section
/-! DEFINITION. The seven commands of the block (30_encoding.md R84, 00_scope.md R15), one
constructor per row of spec/opcode_table.json. -/

namespace Sys2Proof

/-- A command with its operands (30_encoding.md R81, R82). -/
inductive Instr where
  /-- BEGIN, the source's `begin()` (43_bus_commands.md R161). -/
  | begin
  /-- BEGIN_TX addr, the source's `beginTransmission(addr)` (R163). -/
  | beginTx (addr : Byte)
  /-- WRITE data, the source's `write(byte)` (R165). -/
  | write (data : Byte)
  /-- END_TX, the source's `endTransmission()` (R167). -/
  | endTx
  /-- REQUEST_FROM addr, len, the source's `requestFrom(addr, len)` (R169). The length is a
  count; WellFormed bounds it by the 8 bits of the operand field B (R82). -/
  | requestFrom (addr : Byte) (len : Nat)
  /-- AVAILABLE, the source's `available()` (44_receive_buffer.md R190). -/
  | available
  /-- READ, the source's `read()` (R192). -/
  | read
  deriving DecidableEq, Repr

end Sys2Proof
end

