-- ==== Sys2Proof/WellFormed.lean ====
section
/-! DEFINITION. The commands that have an encoding: operand values fit their fields
(30_encoding.md R80 to R82, R89). Addresses and data bytes fit by their type; the length is
checked here. -/

namespace Sys2Proof

/-- The length operand fits the 8-bit field B: "len 0..255" (30_encoding.md R89). -/
def Instr.lengthFits : Instr → Bool
  | .begin => true
  | .beginTx _ => true
  | .write _ => true
  | .endTx => true
  | .requestFrom _ len => len < 256
  | .available => true
  | .read => true

/-- A command is well formed when each operand fits its field (30_encoding.md R89). Lengths 249
to 255 are well formed: the block, not the assembler, faults on them (R82). -/
abbrev Instr.WellFormed (i : Instr) : Prop := i.lengthFits = true

end Sys2Proof
end

