-- ==== Sys2Proof/Decode.lean ====
section
/-! DEFINITION. Decoding a command word (30_encoding.md R80 to R87), total on every 32-bit word,
and its inverse on legal commands (R88). -/

namespace Sys2Proof

/-- Field `OP`, bits 3:0 (R80). -/
def opField (w : Word) : BitVec 4 := w.extractLsb' 0 4

/-- Field `RES_LO`, bits 7:4, reserved (R80, R83). -/
def resLoField (w : Word) : BitVec 4 := w.extractLsb' 4 4

/-- Field `A`, bits 15:8, the first operand (R80, R81). -/
def aField (w : Word) : Byte := w.extractLsb' 8 8

/-- Field `B`, bits 23:16, the second operand (R80, R82). -/
def bField (w : Word) : Byte := w.extractLsb' 16 8

/-- Field `RES_HI`, bits 31:24, reserved (R80, R83). -/
def resHiField (w : Word) : Byte := w.extractLsb' 24 8

/-- Why a word is ILLEGAL (R85): the decoder's rejections by name. The block reports them all as
the one fault ILLEGAL_COMMAND (60_exceptions.md R211). -/
inductive Illegal where
  /-- `RES_HI` is not 0 (R83). -/
  | reservedHigh
  /-- `RES_LO` is not 0 (R83). -/
  | reservedLow
  /-- An operand field the command does not use is not 0 (R86). -/
  | unusedOperand
  /-- Opcode 0x0 or 0x8 to 0xF (R87). -/
  | opcode
  deriving DecidableEq, Repr

/-- `i` if the operand fields it does not use are 0, else a rejection by name (R86). -/
def ifUnusedZero (unusedAreZero : Bool) (i : Instr) : Except Illegal Instr :=
  if unusedAreZero then .ok i else .error .unusedOperand

/-- `Decode(w)` (R85), total on every 32-bit word. -/
def decode (w : Word) : Except Illegal Instr :=
  if resHiField w ≠ 0#8 then .error .reservedHigh
  else if resLoField w ≠ 0#4 then .error .reservedLow
  else match (opField w).toNat with
    | 1 => ifUnusedZero (aField w = 0#8 ∧ bField w = 0#8) .begin
    | 2 => ifUnusedZero (bField w = 0#8) (.beginTx (aField w))
    | 3 => ifUnusedZero (bField w = 0#8) (.write (aField w))
    | 4 => ifUnusedZero (aField w = 0#8 ∧ bField w = 0#8) .endTx
    | 5 => .ok (.requestFrom (aField w) (bField w).toNat)
    | 6 => ifUnusedZero (aField w = 0#8 ∧ bField w = 0#8) .available
    | 7 => ifUnusedZero (aField w = 0#8 ∧ bField w = 0#8) .read
    | _ => .error .opcode

/-- The CMD32 format (R80): the word with the given operand bytes and opcode, reserved fields 0. -/
def cmd32 (b a : Byte) (op : BitVec 4) : Word := 0#8 ++ b ++ a ++ 0#4 ++ op

/-- `Enc(c)` (R88), the word of a well-formed command. -/
def encode : Instr → Word
  | .begin => cmd32 0#8 0#8 1#4
  | .beginTx addr => cmd32 0#8 addr 2#4
  | .write data => cmd32 0#8 data 3#4
  | .endTx => cmd32 0#8 0#8 4#4
  | .requestFrom addr len => cmd32 (BitVec.ofNat 8 len) addr 5#4
  | .available => cmd32 0#8 0#8 6#4
  | .read => cmd32 0#8 0#8 7#4

/-- The command word of a row of the opcode table: bits `nbits - 1` to 0 are those of `w`, every
bit above is 0. The command word is one 32-bit port word, so the table's bit numbers are the
word's (log entry 14). -/
def tableWord (nbits w : Nat) : Word := BitVec.ofNat 32 (w % 2 ^ nbits)

/-- The command the decoder reads from a word numbered as spec/opcode_table.json numbers it. -/
def decodeTableWord (nbits w : Nat) : Option Instr :=
  match decode (tableWord nbits w) with
  | .ok i => some i
  | .error _ => none

end Sys2Proof
end

