-- ==== Sys2Proof/Config.lean ====
section
/-! DEFINITION. What this hardware fixes (00_scope.md R9, R10, R11) and the free values the
spec leaves open (93_implementation_defined.md U5). -/

namespace Sys2Proof

/-- The two values of the parameter `P_SDA_LATCH` (00_scope.md R11, 40_line_control.md R104):
what the switch of the data line to input does to the data output latch. -/
inductive SdaLatch where
  /-- The latch keeps its value. -/
  | retain
  /-- The latch is cleared to 0. -/
  | clear
  deriving DecidableEq, Repr

/-- `CAP`, the receive buffer capacity in bytes (R9). -/
def Config.cap : Nat := 248

/-- `ADDR_BITS`, the address bits sent per transaction (R9). -/
def Config.addrBits : Nat := 7

/-- `DUMMY_CLOCKS`, the clock pulses of BEGIN (R9). -/
def Config.dummyClocks : Nat := 9

/-- `DATA_BITS`, the bits of a data byte (R9). -/
def Config.dataBits : Nat := 8

/-- `MAX_LEN`, the largest legal read length (R9). -/
def Config.maxLen : Nat := 248

/-- This hardware's value of `P_SDA_LATCH` (R11). -/
def Config.sdaLatch : SdaLatch := .retain

/-- The default of `T_HOLD` in nanoseconds (R10). No rule depends on it. -/
def Config.tHoldNs : Nat := 1000000

/-- The default of `T_SETUP` in nanoseconds (R10). No rule depends on it. -/
def Config.tSetupNs : Nat := 5000

/-- FREE VALUE (log entry 4): the level the bus environment gives at the `n`-th Sample after the
planned levels of `Env.sda` have run out. It has no body: a sampled level is any value
(40_line_control.md R106, 93_implementation_defined.md U5). -/
opaque Config.sdaLevel : Nat → Level

end Sys2Proof
end

