-- ==== Sys2Proof/Machine/State.lean ====
section
/-! DEFINITION. Every piece of state of the block (10_state.md), the environment's plan, the
observation, and the state after reset. All of it is plain data. -/

namespace Sys2Proof.Machine

/-- A line direction (00_scope.md R14). -/
inductive Dir where
  /-- `OUT`: the block drives the line. -/
  | out
  /-- `IN`: the block releases the line. -/
  | input
  deriving DecidableEq, Repr

/-- The two wait lengths (00_scope.md R10): lower bounds, kept symbolic (R256). -/
inductive Delay where
  /-- `T_HOLD`. -/
  | tHold
  /-- `T_SETUP`. -/
  | tSetup
  deriving DecidableEq, Repr

/-- A trace event (40_line_control.md R100), one per bus action. -/
inductive Event where
  /-- `SCL=l`. -/
  | scl (l : Level)
  /-- `SDA=l`. -/
  | sda (l : Level)
  /-- `SCLDIR=d`. -/
  | sclDir (d : Dir)
  /-- `SDADIR=d`. -/
  | sdaDir (d : Dir)
  /-- `WAIT(T)`. -/
  | wait (t : Delay)
  /-- `SAMPLE->b`. -/
  | sample (b : Level)
  deriving DecidableEq, Repr

/-- `ENG_STATE` (10_state.md R36). -/
inductive EngState where
  /-- No command is running and the command port accepts one. -/
  | idle
  /-- A command is running. -/
  | busy
  /-- A fault was taken; nothing runs until reset. -/
  | faulted
  deriving DecidableEq, Repr

/-- The fault causes (60_exceptions.md R211). -/
inductive FaultCause where
  /-- `Decode(CMD) = ILLEGAL`. -/
  | illegalCommand
  /-- A bus command while `INIT = 0`. -/
  | notInitialized
  /-- REQUEST_FROM with a length above 248. -/
  | lengthTooLarge
  /-- READ with `RD_CURSOR >= EXP_LEN`. -/
  | readPastEnd
  deriving DecidableEq, Repr

/-- The receive buffer's cells (20_memory.md R60): (index, byte) pairs, indices strictly rising,
no listed byte equal to 0x00, which is what an unlisted index reads as (R47: reset contents). -/
abbrev Memory := List Host.Cell

/-- The MODEL'S OWN plan of what the host and the bus environment do (log entries 3 and 4). It is
no state of the block: no reset changes it. -/
structure Env where
  /-- The levels of the `rst` input in the coming steps, the present step's first; low after the
  end (10_state.md R44). -/
  rst : List Level
  /-- What the host does in each coming step in which the block is ready: `some w` offers the word
  `w` (`cmd_valid = 1`), `none` offers nothing; nothing after the end. An offer waits while the
  block is not ready (R44). -/
  cmd : List (Option Word)
  /-- The levels of `sda_i` at the coming Samples (40_line_control.md R106). -/
  sda : List Level
  /-- How many free levels have been drawn after the end of `sda`. -/
  draws : Nat
  deriving DecidableEq, Repr

/-- The whole machine (10_state.md). -/
structure State where
  /-- `RXBUF` (R31). -/
  rxbuf : Memory
  /-- `HAS_UNREAD` (R32). -/
  hasUnread : Bool
  /-- `RD_CURSOR` (R33). -/
  rdCursor : BitVec 8
  /-- `EXP_LEN` (R34). -/
  expLen : BitVec 8
  /-- `ENG_STATE` (R36). -/
  engState : EngState
  /-- `upc` (R36): how many micro-steps of the running command's procedure lie before the next
  one, loops other than WaitAck's counted out; the counters k, j, i and c of R45 are part of it. -/
  upc : Nat
  /-- The sampled bit `b` (R45); what it holds outside the procedure that sampled it is the model's
  (DESIGN CHOICE, log entry 17). -/
  b : Level
  /-- The byte accumulator `acc` of ReadByte (R45); what it holds outside a ReadByte is the model's
  (DESIGN CHOICE, log entry 17). -/
  acc : Byte
  /-- `CMD` (R37). -/
  cmd : Word
  /-- `RSP_DATA` (R38). -/
  rspData : Byte
  /-- `INIT` (R39). -/
  init : Bool
  /-- `FAULT` (R40). -/
  fault : Bool
  /-- `FAULT_CODE` (R40). -/
  faultCode : BitVec 4
  /-- `FAULT_CMD` (R40). -/
  faultCmd : Word
  /-- The latch `SCL_O` (R43). -/
  sclO : Level
  /-- The latch `SCL_OE` (R43): `true` when the clock line is an output. -/
  sclOe : Bool
  /-- The latch `SDA_O` (R43). -/
  sdaO : Level
  /-- The latch `SDA_OE` (R43): `true` when the data line is an output. -/
  sdaOe : Bool
  /-- The parameter `P_SDA_LATCH` (00_scope.md R11), which a model takes as an argument: no step
  writes it (log entry 7). -/
  sdaLatch : SdaLatch
  /-- OBSERVATION: the trace of bus actions, newest first (00_scope.md R8; log entry 8). -/
  trace : List Event
  /-- OBSERVATION: the responses, one per `rsp_valid` event, newest first (R8, R38; log entry 8). -/
  responses : List Byte
  /-- The environment's plan (log entries 3 and 4). -/
  env : Env
  deriving DecidableEq, Repr

/-- Why a step stops. Neither fault is the spec's own: contract violations of the host are the
sticky faults of 60_exceptions.md R213, which are NEXT states. -/
inductive Fault where
  /-- Raised by MemRead and MemWrite at an index outside 0 to 247, which does not exist
  (20_memory.md R60). Safe: the spec's rules exclude the access, and no state that meets the
  invariant reaches it (log entry 9). -/
  | rxbufIndex
  /-- Raised by a step of a BUSY engine whose latched CMD is illegal or whose sequencer position
  lies past its procedure's end. Safe: no state that meets the invariant is so (log entry 10). -/
  | noMicroStep
  deriving DecidableEq, Repr

/-- Why a step has no meaning. -/
inductive Refusal where
  /-- Raised by an arm of `exec` whose instruction has no meaning yet; safe. No arm answers it. -/
  | notModelled (mnemonic : String)
  deriving DecidableEq, Repr

/-- The environment with nothing planned (DESIGN CHOICE, log entries 3 and 4). -/
def Env.quiet : Env := { rst := [], cmd := [], sda := [], draws := 0 }

/-- The machine right after reset (10_state.md R47, 70_reset_and_hazards.md R242). `cmd` (log
entry 5) and `upc`, `b`, `acc` (log entry 6) are DESIGN CHOICES where the spec states no value. -/
def State.reset : State where
  rxbuf := []
  hasUnread := false
  rdCursor := 0#8
  expLen := 0#8
  engState := .idle
  upc := 0
  b := false
  acc := 0#8
  cmd := 0#32
  rspData := 0#8
  init := false
  fault := false
  faultCode := 0#4
  faultCmd := 0#32
  sclO := true
  sclOe := false
  sdaO := true
  sdaOe := false
  sdaLatch := Config.sdaLatch
  trace := []
  responses := []
  env := Env.quiet

end Sys2Proof.Machine
end

