-- ==== Sys2Proof/Machine/Ops.lean ====
section
/-! DEFINITION. The named operations over the receive buffer, the registers and the environment's
plan; fault entry, acceptance, response and reset, each in one place. -/

namespace Sys2Proof.Machine

/-! ### The receive buffer (20_memory.md R60) -/

/-- The byte at an index; an unlisted index reads as 0x00 (10_state.md R47, 20_memory.md R67). -/
def Memory.read : Memory → Nat → Byte
  | [], _ => 0#8
  | (a, v) :: m, i => if i = a then v else Memory.read m i

/-- Write one byte and keep the canonical form: a 0x00 is not listed. -/
def Memory.write : Memory → Nat → Byte → Memory
  | [], i, v => if v = 0#8 then [] else [(i, v)]
  | (a, w) :: m, i, v =>
    if i < a then (if v = 0#8 then (a, w) :: m else (i, v) :: (a, w) :: m)
    else if i = a then (if v = 0#8 then m else (i, v) :: m)
    else (a, w) :: Memory.write m i v

/-- The buffer with every index at 0x00 (20_memory.md R67: indices 0 to 247). -/
def Memory.zeroed : Memory := []

/-- The canonical form from index `lo` on: indices strictly rising from `lo`, all below `CAP`, no
byte 0x00 listed. -/
def Memory.wfFrom : Nat → Memory → Bool
  | _, [] => true
  | lo, (a, v) :: m => decide (lo ≤ a) && decide (a < Config.cap) && (v != 0#8) && Memory.wfFrom (a + 1) m

/-- The canonical form of the receive buffer. -/
def Memory.wf (m : Memory) : Bool := Memory.wfFrom 0 m

/-- `MemRead(i, 1)` (00_scope.md R13), defined only for `0 <= i <= 247` (R60). -/
def memRead (i : Nat) (s : State) : Option Byte :=
  if i < Config.cap then some (s.rxbuf.read i) else none

/-- `MemWrite(i, 1, v)` (00_scope.md R13), defined only for `0 <= i <= 247` (R60). -/
def memWrite (i : Nat) (v : Byte) (s : State) : Option State :=
  if i < Config.cap then some { s with rxbuf := s.rxbuf.write i v } else none

/-! ### The sequencer and the command port -/

/-- The sequencer goes on to the next micro-step (10_state.md R36). -/
def advance (s : State) : State := { s with upc := s.upc + 1 }

/-- `respond(v)` (10_state.md R38): the response, one completion, and `ENG_STATE <- IDLE`. No
command runs after it, so the sequencer holds no position. DESIGN CHOICE (log entry 17): the working
values `b` and `acc`, to which R45 and R47 give no value once no command runs, keep what they hold
until a later command rewrites them. -/
def respond (v : Byte) (s : State) : State :=
  { s with rspData := v, responses := v :: s.responses, engState := .idle, upc := 0 }

/-- The bits of `FAULT_CODE` for a cause (60_exceptions.md R211). -/
def FaultCause.code : FaultCause → BitVec 4
  | .illegalCommand => 1#4
  | .notInitialized => 2#4
  | .lengthTooLarge => 3#4
  | .readPastEnd => 4#4

/-- `raise Fault(code)` (60_exceptions.md R213): fault entry, the block's one exception. It records
the fault and the latched command word and enters FAULTED; nothing else changes. -/
def raiseFault (c : FaultCause) (s : State) : State :=
  { s with fault := true, faultCode := c.code, faultCmd := s.cmd, engState := .faulted }

/-- The accepted command starts: `ENG_STATE <- BUSY`, at its procedure's first micro-step
(60_exceptions.md R212). -/
def startCommand (s : State) : State := { s with engState := .busy, upc := 0 }

/-- `CMD <- cmd_word`, and the offer is taken off the host's plan (10_state.md R44). -/
def latchCommand (w : Word) (s : State) : State :=
  { s with cmd := w, env := { s.env with cmd := s.env.cmd.tail } }

/-- A step in which the block is ready and the host offers nothing: only the plan goes on. -/
def idleStep (s : State) : State := { s with env := { s.env with cmd := s.env.cmd.tail } }

/-! ### Inputs -/

/-- `cmd_valid` with `cmd_word` (10_state.md R44): the word the host offers in this step, if any. -/
def offered (s : State) : Option Word := s.env.cmd.head?.join

/-- The level of `rst` in this step (10_state.md R44). -/
def rstNow (s : State) : Level := s.env.rst.headD false

/-- The `rst` input goes on to its next planned level. -/
def rstNext (s : State) : State := { s with env := { s.env with rst := s.env.rst.tail } }

/-- Reset (70_reset_and_hazards.md R240): every piece of state takes its value of 10_state.md R47.
The parameter, the observation so far and the environment's plan are no state of the block. -/
def applyReset (s : State) : State :=
  { State.reset with
    sdaLatch := s.sdaLatch, trace := s.trace, responses := s.responses, env := s.env }

/-- `sda_i` at a Sample (40_line_control.md R106): the next planned level, or a free value after
the plan's end (93_implementation_defined.md U5). -/
def sdaIn (s : State) : Level := s.env.sda.headD (Config.sdaLevel s.env.draws)

/-- The environment's plan after one Sample. -/
def Env.afterSample (e : Env) : Env :=
  match e.sda with
  | [] => { e with draws := e.draws + 1 }
  | _ :: rest => { e with sda := rest }

end Sys2Proof.Machine
end

