-- ==== Sys2Proof/Machine/Operands.lean ====
section
/-! DEFINITION. The operand forms of the commands (30_encoding.md R81, R82) and the bit selection
of the serializer and deserializer (41_bit_transport.md R120, R124). -/

namespace Sys2Proof.Machine

/-- `value[k]` (00_scope.md R12), the level the serializer sends for bit `k`. -/
def bitOf (value : Byte) (k : Nat) : Level := value.getLsbD k

/-- A direction bit or master ack bit as the 8-bit value WriteBits takes (42_framing.md R146, R147). -/
def bitValue (l : Level) : Byte := if l then 1#8 else 0#8

/-- `acc <- ((acc << 1) | bit_j)[7:0]`, where `acc <- 0x00` stands before bit 0
(41_bit_transport.md R124). -/
def shiftIn (j : Nat) (acc : Byte) (b : Level) : Byte :=
  ((if j = 0 then 0#8 else acc) <<< 1) ||| bitValue b

/-- The length operand as the 8-bit register value (10_state.md R34). -/
def lengthReg (n : Nat) : BitVec 8 := BitVec.ofNat 8 n

/-- The length operand is within the source's limit "byte count ≤ 248" (30_encoding.md R82). -/
def lengthLegal (n : Nat) : Bool := n ≤ Config.maxLen

end Sys2Proof.Machine
end

