-- ==== Sys2Proof/Machine/Flags.lean ====
section
/-! DEFINITION. The flags and the status word (10_state.md R41, R42), the output ports (R43, R44),
and the acceptance checks that read the flags (60_exceptions.md R211, R212). -/

namespace Sys2Proof.Machine

/-- STATUS bit 0, BUSY (R41). -/
def State.busy (s : State) : Bool := s.engState == .busy

/-- `cmd_ready` (R44): 1 iff `ENG_STATE = IDLE`. -/
def State.cmdReady (s : State) : Bool := s.engState == .idle

/-- `STATUS` (R41): FAULT_CODE in 7:4, FAULT 3, HAS_UNREAD 2, INIT 1, BUSY 0. -/
def State.status (s : State) : BitVec 8 :=
  s.faultCode ++ BitVec.ofBool s.fault ++ BitVec.ofBool s.hasUnread ++ BitVec.ofBool s.init
    ++ BitVec.ofBool s.busy

/-- The pin outputs `(scl_o, scl_oe, sda_o, sda_oe)`, equal to their latches at every instant
(R43, 40_line_control.md R107). -/
def State.pins (s : State) : Level × Bool × Level × Bool := (s.sclO, s.sclOe, s.sdaO, s.sdaOe)

/-- The comparison `RD_CURSOR = EXP_LEN` of AVAILABLE (44_receive_buffer.md R190). -/
def State.drained (s : State) : Bool := s.rdCursor == s.expLen

/-- The comparison `RD_CURSOR >= EXP_LEN` of READ's check (60_exceptions.md R212). -/
def State.pastEnd (s : State) : Bool := s.expLen ≤ s.rdCursor

/-- The check of BEGIN and AVAILABLE: none beyond decoding (R211). -/
def noCheck (_ : State) : Option FaultCause := none

/-- The check of BEGIN_TX, WRITE and END_TX: `INIT` (R211, R212). -/
def initCheck (s : State) : Option FaultCause := if s.init then none else some .notInitialized

/-- The checks of REQUEST_FROM, in order: `INIT`, then the length (R212, R214). -/
def requestCheck (n : Nat) (s : State) : Option FaultCause :=
  if !s.init then some .notInitialized
  else if lengthLegal n then none
  else some .lengthTooLarge

/-- The check of READ: a byte is left (R212; 44_receive_buffer.md R193). -/
def readCheck (s : State) : Option FaultCause := if s.pastEnd then some .readPastEnd else none

end Sys2Proof.Machine
end

