-- ==== Sys2Proof/Machine/LineControl.lean ====
section
/-! DEFINITION. Line Control: the six bus actions (40_line_control.md R100 to R112). -/

namespace Sys2Proof.Machine

/-- The bus-action alphabet, exactly these six (R100). -/
inductive Action where
  /-- `SetSCL(l)` (R101). -/
  | setScl (l : Level)
  /-- `SetSDA(l)` (R102). -/
  | setSda (l : Level)
  /-- `SetSCLDir(d)` (R103). -/
  | setSclDir (d : Dir)
  /-- `SetSDADir(d)` (R104). -/
  | setSdaDir (d : Dir)
  /-- `Wait(T)` (R105). -/
  | wait (t : Delay)
  /-- `b <- Sample()` (R106). -/
  | sample
  deriving DecidableEq, Repr

/-- Append one event to the trace (00_scope.md R13). -/
def emit (e : Event) (s : State) : State := { s with trace := e :: s.trace }

/-- `OUT` drives the line, `IN` releases it (00_scope.md R14): the output-enable value. -/
def Dir.drives : Dir → Bool
  | .out => true
  | .input => false

/-- `SetSCL(l)` (R101): the latch is written whatever `SCL_OE` is. -/
def setScl (l : Level) (s : State) : State := emit (.scl l) { s with sclO := l }

/-- `SetSDA(l)` (R102). -/
def setSda (l : Level) (s : State) : State := emit (.sda l) { s with sdaO := l }

/-- `SetSCLDir(d)` (R103): `SCL_O` is not changed. -/
def setSclDir (d : Dir) (s : State) : State := emit (.sclDir d) { s with sclOe := d.drives }

/-- The data output latch after a switch of the data line's direction (R104): cleared by `IN` under
`P_SDA_LATCH = CLEAR`, kept otherwise. -/
def latchAfterDir (p : SdaLatch) (d : Dir) (l : Level) : Level :=
  if d = .input ∧ p = .clear then false else l

/-- `SetSDADir(d)` (R104). -/
def setSdaDir (d : Dir) (s : State) : State :=
  emit (.sdaDir d) { s with sdaOe := d.drives, sdaO := latchAfterDir s.sdaLatch d s.sdaO }

/-- `Wait(T)` (R105): no state is written. -/
def waitFor (t : Delay) (s : State) : State := emit (.wait t) s

/-- `b <- Sample()` (R106): the level of `sda_i` goes to the working value `b`. -/
def sampleLine (s : State) : State :=
  emit (.sample (sdaIn s)) { s with b := sdaIn s, env := s.env.afterSample }

/-- One bus action (R100). No bus action can fault (R108). -/
def busAction : Action → State → State
  | .setScl l, s => setScl l s
  | .setSda l, s => setSda l s
  | .setSclDir d, s => setSclDir d s
  | .setSdaDir d, s => setSdaDir d s
  | .wait t, s => waitFor t s
  | .sample, s => sampleLine s

end Sys2Proof.Machine
end

