-- ==== Sys2Proof/Machine/Transport.lean ====
section
/-! DEFINITION. The micro-steps of the sequencer (10_state.md R36) and Bit Transport: the bit
serializer and deserializer as lists of micro-steps (41_bit_transport.md R120 to R126). -/

namespace Sys2Proof.Machine

/-- What the pseudocode does with working values right behind a bus action, without a step of its
own (10_state.md R36, R45; log entry 1). -/
inductive After where
  /-- Nothing: the next micro-step follows. -/
  | nothing
  /-- ReadByte's `acc <- ((acc << 1) | bit_j)[7:0]` (41_bit_transport.md R124). -/
  | shift (j : Nat)
  /-- WaitAck's `if b = 0: break`, else its ReadBit again (42_framing.md R144). -/
  | againUnlessAck
  deriving DecidableEq, Repr

/-- One micro-step of a procedure: a bus action, or one line of register updates (R36, R160). -/
inductive MicroStep where
  /-- A bus action with what follows it. -/
  | bus (a : Action) (after : After)
  /-- REQUEST_FROM's first line (43_bus_commands.md R169). -/
  | openRead (n : Nat)
  /-- REQUEST_FROM's `RXBUF[i] <- ReadByte()`, the byte being in `acc` (R169). -/
  | storeByte (i : Nat)
  /-- BEGIN's `INIT <- 1` (R161). -/
  | setInit
  /-- `respond(v)` (10_state.md R38). -/
  | respond (v : Byte)
  /-- AVAILABLE's line (44_receive_buffer.md R190). -/
  | available
  /-- READ's line (44_receive_buffer.md R192). -/
  | read
  deriving DecidableEq, Repr

/-- A bus action followed by the next micro-step. -/
def act (a : Action) : MicroStep := .bus a .nothing

/-- One bit cycle of the serializer (R120). -/
def bitCycle (l : Level) : List MicroStep :=
  [act (.setScl false), act (.setSda l), act (.setScl true), act (.wait .tHold), act (.setScl false)]

/-- `WriteBits(value, n)` (R120): the `n` least significant bits, the highest of them first. -/
def writeBits (value : Byte) : Nat → List MicroStep
  | 0 => []
  | k + 1 => bitCycle (bitOf value k) ++ writeBits value k

/-- `ReadBit()` (R122) with what its caller does on its return: the sample stands after the hold
and before the falling clock edge (R123). -/
def readBit (after : After) : List MicroStep :=
  [act (.setSdaDir .input), act (.setScl false), act (.setScl true), act (.wait .tHold),
   act .sample, act (.setScl false), act (.setSdaDir .out), .bus (.wait .tSetup) after]

/-- The ReadBits of ReadByte from bit `j` on, `n` of them (R124). -/
def readBitsFrom (j : Nat) : Nat → List MicroStep
  | 0 => []
  | n + 1 => readBit (.shift j) ++ readBitsFrom (j + 1) n

/-- `ReadByte()` (R124): eight ReadBits, MSB first, the byte accumulated in `acc`. -/
def readByte : List MicroStep := readBitsFrom 0 Config.dataBits

end Sys2Proof.Machine
end

