-- ==== Sys2Proof/Machine/Framing.lean ====
section
/-! DEFINITION. Transaction Framing: start and stop generator, address phase and ACK/NACK arbiter
as lists of micro-steps (42_framing.md R140 to R148). -/

namespace Sys2Proof.Machine

/-- `Start()` (R140). -/
def start : List MicroStep :=
  [act (.setSda true), act (.wait .tHold), act (.setScl true), act (.wait .tHold),
   act (.setSda false), act (.wait .tHold), act (.wait .tSetup)]

/-- `Stop()` (R142). It never drives data low (R143). -/
def stop : List MicroStep :=
  [act (.setScl false), act (.wait .tHold), act (.setScl true), act (.wait .tHold),
   act (.setSda true), act (.wait .tHold), act (.wait .tSetup)]

/-- `WaitAck()` (R144): a ReadBit, again until it returns 0. There is no bound (R145). -/
def waitAck : List MicroStep := readBit .againUnlessAck

/-- How many micro-steps WaitAck's loop goes back from its last one to its first. -/
def waitAckBack : Nat := 7

/-- `AddressPhase(a, dir)` (R146): the 7 low address bits, the direction bit (1 for read), WaitAck.
`a[7]` is not sent. -/
def addressPhase (a : Byte) (dir : Level) : List MicroStep :=
  writeBits a Config.addrBits ++ writeBits (bitValue dir) 1 ++ waitAck

/-- `MasterAckBit(i, n)` (R147): 0 (MA0) after every byte but the last, 1 (MA1) after the last. -/
def masterAckBit (i n : Nat) : List MicroStep :=
  if i + 1 < n then writeBits (bitValue false) 1 else writeBits (bitValue true) 1

end Sys2Proof.Machine
end

