-- ==== Sys2Proof/Machine/Sequencer.lean ====
section
/-! DEFINITION. The sequencer: the effect of one micro-step, and the common frame of every command
(43_bus_commands.md R160, 60_exceptions.md R212). -/

namespace Sys2Proof.Machine

/-- The working values and the sequencer position behind a bus action (log entry 1). -/
def afterAction : After → State → State
  | .nothing, s => advance s
  | .shift j, s => advance { s with acc := shiftIn j s.acc s.b }
  | .againUnlessAck, s => if s.b then { s with upc := s.upc - waitAckBack } else advance s

/-- REQUEST_FROM's first line (R169, R67): flag, cursor, length, and the whole buffer to 0x00. -/
def openReadTransaction (n : Nat) (s : State) : State :=
  { s with hasUnread := true, rdCursor := 0#8, expLen := lengthReg n, rxbuf := Memory.zeroed }

/-- AVAILABLE's line (44_receive_buffer.md R190): the flag is cleared lazily, here. -/
def availableLine (s : State) : State :=
  if s.drained then respond 0#8 { s with hasUnread := false } else respond 1#8 s

/-- READ's line (44_receive_buffer.md R192) for the byte `v` read at the cursor. -/
def readLine (v : Byte) (s : State) : State := respond v { s with rdCursor := s.rdCursor + 1#8 }

/-- The effect of one micro-step of the running command. -/
def runMicroStep : MicroStep → State → Host.Outcome State Fault Refusal
  | .bus a after, s => .next (afterAction after (busAction a s))
  | .openRead n, s => .next (advance (openReadTransaction n s))
  | .storeByte i, s =>
    match memWrite i s.acc s with
    | some t => .next (advance t)
    | none => .fault .rxbufIndex
  | .setInit, s => .next (advance { s with init := true })
  | .respond v, s => .next (respond v s)
  | .available, s => .next (availableLine s)
  | .read, s =>
    match memRead s.rdCursor.toNat s with
    | some v => .next (readLine v s)
    | none => .fault .rxbufIndex

/-- One step of a command, given its acceptance check and its procedure (the micro-step at each
sequencer position). IDLE: the latched command is accepted, which takes the fault of its check or
starts it (60_exceptions.md R212). BUSY: the command runs, and its micro-step at `upc` is done
(10_state.md R36). FAULTED: nothing changes (60_exceptions.md R215). -/
def runCommand (check : State → Option FaultCause) (procedure : Nat → Option MicroStep) (s : State) :
    Host.Outcome State Fault Refusal :=
  match s.engState with
  | .idle =>
    match check s with
    | some c => .next (raiseFault c s)
    | none => .next (startCommand s)
  | .busy =>
    match procedure s.upc with
    | some m => runMicroStep m s
    | none => .fault .noMicroStep
  | .faulted => .next s

end Sys2Proof.Machine
end

