-- ==== Sys2Proof/Machine/BusCommands.lean ====
section
/-! DEFINITION. The five bus commands (43_bus_commands.md R160 to R172): each one's procedure and
its meaning. -/

namespace Sys2Proof.Machine

/-- One dummy clock of BEGIN (R161). -/
def dummyClock : List MicroStep :=
  [act (.setScl true), act (.wait .tHold), act (.setScl false), act (.wait .tHold)]

/-- `for c = 1 to n`: `n` dummy clocks (R161). -/
def dummyClocks : Nat → List MicroStep
  | 0 => []
  | c + 1 => dummyClock ++ dummyClocks c

/-- BEGIN's procedure (R161). -/
def beginProcedure : List MicroStep :=
  [act (.setSclDir .out), act (.setSdaDir .out), act (.setScl false)]
    ++ dummyClocks Config.dummyClocks ++ stop ++ [.setInit, .respond 0#8]

/-- BEGIN_TX's procedure (R163). -/
def beginTxProcedure (a : Byte) : List MicroStep := start ++ addressPhase a false ++ [.respond 0#8]

/-- WRITE's procedure (R165). -/
def writeProcedure (d : Byte) : List MicroStep :=
  writeBits d Config.dataBits ++ waitAck ++ [.respond 0#8]

/-- END_TX's procedure (R167). -/
def endTxProcedure : List MicroStep := stop ++ [.respond 0#8]

/-- REQUEST_FROM up to its byte loop (R169). -/
def requestHead (a : Byte) (n : Nat) : List MicroStep := .openRead n :: start ++ addressPhase a true

/-- The body of REQUEST_FROM's byte loop for byte `i` (R169). -/
def requestBody (i n : Nat) : List MicroStep := readByte ++ [.storeByte i] ++ masterAckBit i n

/-- REQUEST_FROM behind its byte loop (R169). -/
def requestTail : List MicroStep := stop ++ [.respond 0#8]

/-- The micro-steps of the part before the byte loop: 1 register line, 7 + 40 + 8 bus actions. -/
def requestHeadSteps : Nat := 56

/-- The micro-steps of one pass of the byte loop: 64 bus actions, 1 store, 5 bus actions. -/
def requestBodySteps : Nat := 70

/-- REQUEST_FROM's procedure (R169): the micro-step at position `p`. The loop counter `i` is the
number of passes before `p`. -/
def requestProcedure (a : Byte) (n p : Nat) : Option MicroStep :=
  if p < requestHeadSteps then (requestHead a n)[p]?
  else if p - requestHeadSteps < requestBodySteps * n then
    (requestBody ((p - requestHeadSteps) / requestBodySteps) n)[(p - requestHeadSteps) % requestBodySteps]?
  else requestTail[p - requestHeadSteps - requestBodySteps * n]?

/-- BEGIN (R161, R162): legal at any time, no check. -/
def execBegin (s : State) : Host.Outcome State Fault Refusal :=
  runCommand noCheck (fun p => beginProcedure[p]?) s

/-- BEGIN_TX (R163, R164). -/
def execBeginTx (a : Byte) (s : State) : Host.Outcome State Fault Refusal :=
  runCommand initCheck (fun p => (beginTxProcedure a)[p]?) s

/-- WRITE (R165, R166). -/
def execWrite (d : Byte) (s : State) : Host.Outcome State Fault Refusal :=
  runCommand initCheck (fun p => (writeProcedure d)[p]?) s

/-- END_TX (R167, R168). -/
def execEndTx (s : State) : Host.Outcome State Fault Refusal :=
  runCommand initCheck (fun p => endTxProcedure[p]?) s

/-- REQUEST_FROM (R169 to R171). -/
def execRequestFrom (a : Byte) (n : Nat) (s : State) : Host.Outcome State Fault Refusal :=
  runCommand (requestCheck n) (requestProcedure a n) s

end Sys2Proof.Machine
end

