-- ==== Sys2Proof/Machine/ReceiveBuffer.lean ====
section
/-! DEFINITION. The two receive buffer commands (44_receive_buffer.md R190 to R195). Neither has a
bus action and neither checks `INIT`. -/

namespace Sys2Proof.Machine

/-- AVAILABLE's procedure (R190): one line. -/
def availableProcedure : List MicroStep := [.available]

/-- READ's procedure (R192): one line. -/
def readProcedure : List MicroStep := [.read]

/-- AVAILABLE (R190, R191). -/
def execAvailable (s : State) : Host.Outcome State Fault Refusal :=
  runCommand noCheck (fun p => availableProcedure[p]?) s

/-- READ (R192, R193). -/
def execRead (s : State) : Host.Outcome State Fault Refusal :=
  runCommand readCheck (fun p => readProcedure[p]?) s

end Sys2Proof.Machine
end

