-- ==== Sys2Proof/Machine/Dispatch.lean ====
section
/-! DEFINITION. One arm per command: its meaning. -/

namespace Sys2Proof.Machine

/-- One step of the command `i`: its acceptance in IDLE, its next micro-step in BUSY
(00_scope.md R7, 43_bus_commands.md R160). -/
def exec (i : Instr) (s : State) : Host.Outcome State Fault Refusal :=
  match i with
  | .begin => Sys2Proof.Machine.execBegin s
  | .beginTx addr => Sys2Proof.Machine.execBeginTx addr s
  | .write data => Sys2Proof.Machine.execWrite data s
  | .endTx => Sys2Proof.Machine.execEndTx s
  | .requestFrom addr len => Sys2Proof.Machine.execRequestFrom addr len s
  | .available => Sys2Proof.Machine.execAvailable s
  | .read => Sys2Proof.Machine.execRead s

end Sys2Proof.Machine
end

