-- ==== Sys2Proof/Machine/Engine.lean ====
section
/-! DEFINITION. What the engine does in a step in which reset is low: acceptance of an offered
word, a running command's micro-step, or nothing (10_state.md R36, R44; 60_exceptions.md R212,
R215). -/

namespace Sys2Proof.Machine

/-- `Accept(w)` (60_exceptions.md R212), one step: the word is latched and decoded; an illegal word
faults, a command's own checks and start are its meaning's. -/
def accept (w : Word) (s : State) : Host.Outcome State Fault Refusal :=
  match decode w with
  | .ok i => exec i (latchCommand w s)
  | .error _ => .next (raiseFault .illegalCommand (latchCommand w s))

/-- A step of the running command, which the latch CMD holds (10_state.md R37). -/
def runLatched (s : State) : Host.Outcome State Fault Refusal :=
  match decode s.cmd with
  | .ok i => exec i s
  | .error _ => .fault .noMicroStep

/-- The engine's step by `ENG_STATE` (10_state.md R36). A ready block with no offer waits (R44); a
faulted one does not change (60_exceptions.md R215). -/
def engineStep (s : State) : Host.Outcome State Fault Refusal :=
  match s.engState with
  | .idle =>
    match offered s with
    | some w => accept w s
    | none => .next (idleStep s)
  | .busy => runLatched s
  | .faulted => .next s

/-- The state in which the very next engine step accepts the word `w`: reset low, the block IDLE
with no fault recorded, and `w` offered before what the host planned (log entry 2). -/
def offerWord (w : Word) (s : State) : State :=
  { s with
    engState := .idle, fault := false, faultCode := 0#4, faultCmd := 0#32,
    env := { s.env with
      rst := match s.env.rst with
        | [] => []
        | _ :: rest => false :: rest
      cmd := some w :: s.env.cmd } }

end Sys2Proof.Machine
end

