-- ==== Sys2Proof/Machine/Step.lean ====
section
/-! DEFINITION. One step of the machine (00_scope.md R7): a reset, a command acceptance, a
micro-step of the running command, or a wait. -/

namespace Sys2Proof.Machine

/-- One step. `rst` wins over every other event of the step (70_reset_and_hazards.md R240). -/
def step (s : State) : Host.Outcome State Fault Refusal :=
  if rstNow s then .next (applyReset (rstNext s)) else engineStep (rstNext s)

/-- `s` with the command word `w` offered on the command port, so that the next step accepts it.
The block fetches nothing: a command comes to run when the host offers it (log entry 2). -/
def State.withFetchWord (s : State) (nbits w : Nat) : State := offerWord (tableWord nbits w) s

end Sys2Proof.Machine
end

