-- ==== Sys2Proof/Safety.lean ====
section
/-! DEFINITION. The terms claims use: the runs of a command, the event groups of the spec's traces,
the wire as a reader of the trace sees it, and the invariant of the machine. -/

namespace Sys2Proof.Machine

/-! ### Runs -/

/-- `k` steps of the command `i`: its acceptance first, then its micro-steps. -/
def execRun (i : Instr) : Nat → State → Host.Outcome State Fault Refusal
  | 0, s => .next s
  | k + 1, s =>
    match exec i s with
    | .next t => execRun i k t
    | .fault r => .fault r
    | .refused r => .refused r

/-- A list of micro-steps done in order. -/
def runSteps : List MicroStep → State → Host.Outcome State Fault Refusal
  | [], s => .next s
  | m :: rest, s =>
    match runMicroStep m s with
    | .next t => runSteps rest t
    | .fault r => .fault r
    | .refused r => .refused r

/-- The acceptance check of a command (60_exceptions.md R211, R212). -/
def checkOf : Instr → State → Option FaultCause
  | .begin => noCheck
  | .beginTx _ => initCheck
  | .write _ => initCheck
  | .endTx => initCheck
  | .requestFrom _ n => requestCheck n
  | .available => noCheck
  | .read => readCheck

/-- The micro-step of a command at a sequencer position (10_state.md R36). -/
def procedureOf : Instr → Nat → Option MicroStep
  | .begin => fun p => beginProcedure[p]?
  | .beginTx a => fun p => (beginTxProcedure a)[p]?
  | .write d => fun p => (writeProcedure d)[p]?
  | .endTx => fun p => endTxProcedure[p]?
  | .requestFrom a n => requestProcedure a n
  | .available => fun p => availableProcedure[p]?
  | .read => fun p => readProcedure[p]?

/-- The bus commands, which check `INIT` (60_exceptions.md R211). -/
def isBusCommand : Instr → Bool
  | .begin => false
  | .beginTx _ => true
  | .write _ => true
  | .endTx => true
  | .requestFrom _ _ => true
  | .available => false
  | .read => false

/-- The command is a REQUEST_FROM whose length is over the limit "byte count ≤ 248"
(60_exceptions.md R211). -/
def lengthOver : Instr → Bool
  | .begin => false
  | .beginTx _ => false
  | .write _ => false
  | .endTx => false
  | .requestFrom _ n => 248 < n
  | .available => false
  | .read => false

/-- `k` READ commands, each run to its response. -/
def readTimes : Nat → State → Host.Outcome State Fault Refusal
  | 0, s => .next s
  | k + 1, s =>
    match execRun .read 2 s with
    | .next t => readTimes k t
    | .fault r => .fault r
    | .refused r => .refused r

/-! ### The trace shorthand of 95_test_vectors.md section 0, oldest event first -/

/-- `bit(b)`: one bit cycle of the serializer. -/
def evBit (l : Level) : List Event :=
  [.scl false, .sda l, .scl true, .wait .tHold, .scl false]

/-- `rbit(b)`: one ReadBit that samples `b`. -/
def evReadBit (l : Level) : List Event :=
  [.sdaDir .input, .scl false, .scl true, .wait .tHold, .sample l, .scl false, .sdaDir .out,
   .wait .tSetup]

/-- `START`. -/
def evStart : List Event :=
  [.sda true, .wait .tHold, .scl true, .wait .tHold, .sda false, .wait .tHold, .wait .tSetup]

/-- `STOP`. -/
def evStop : List Event :=
  [.scl false, .wait .tHold, .scl true, .wait .tHold, .sda true, .wait .tHold, .wait .tSetup]

/-- The bits of a byte, MSB first. -/
def bitsOf (v : Byte) : List Level := (List.range 8).map fun j => v.getLsbD (7 - j)

/-- `byte(v)`: eight bit cycles, MSB first. -/
def evByte (v : Byte) : List Event := (bitsOf v).flatMap evBit

/-- `rbyte(v)`: eight ReadBits, MSB first. -/
def evReadByte (v : Byte) : List Event := (bitsOf v).flatMap evReadBit

/-- WaitAck with `k` samples of 1 before the 0. -/
def evAck (k : Nat) : List Event := (List.replicate k true).flatMap evReadBit ++ evReadBit false

/-- The byte on the wire in an address phase, `a[6:0]` then the direction bit (42_framing.md R146). -/
def wireByte (a : Byte) (dir : Level) : Byte := a.extractLsb' 0 7 ++ BitVec.ofBool dir

/-- The nine dummy clocks of BEGIN. -/
def evDummyClocks : List Event :=
  (List.replicate 9 [Event.scl true, .wait .tHold, .scl false, .wait .tHold]).flatten

/-- The trace of BEGIN (43_bus_commands.md R161). -/
def evBegin : List Event :=
  [.sclDir .out, .sdaDir .out, .scl false] ++ evDummyClocks ++ evStop

/-- The trace of BEGIN_TX with `k` samples of 1 before the acknowledge (R163). -/
def evBeginTx (a : Byte) (k : Nat) : List Event := evStart ++ evByte (wireByte a false) ++ evAck k

/-- The trace of WRITE with `k` samples of 1 before the acknowledge (R165). -/
def evWrite (d : Byte) (k : Nat) : List Event := evByte d ++ evAck k

/-- The received bytes of REQUEST_FROM, each with its master ack bit: 0 after every byte but the
last, 1 after the last (42_framing.md R147). -/
def evBytes : List Byte → List Event
  | [] => []
  | [v] => evReadByte v ++ evBit true
  | v :: rest => evReadByte v ++ evBit false ++ evBytes rest

/-- The trace of REQUEST_FROM that receives `bytes`, with `k` samples of 1 before the acknowledge
(R169). -/
def evRequestFrom (a : Byte) (k : Nat) (bytes : List Byte) : List Event :=
  evStart ++ evByte (wireByte a true) ++ evAck k ++ evBytes bytes ++ evStop

/-- The levels the environment supplies for such a read: `k` ones, the acknowledge, the bits. -/
def readLevels (k : Nat) (bytes : List Byte) : List Level :=
  List.replicate k true ++ false :: bytes.flatMap bitsOf

/-! ### The wire as a reader of the trace sees it -/

/-- The driven line levels a reader of the trace keeps. -/
structure Lines where
  /-- The clock level. -/
  scl : Level
  /-- The data level. -/
  sda : Level
  deriving DecidableEq, Repr

/-- The driven levels in a state. -/
def State.lines (s : State) : Lines := { scl := s.sclO, sda := s.sdaO }

/-- The driven levels after one event. A switch of a direction keeps the level, as under
`P_SDA_LATCH = RETAIN` (40_line_control.md R104). -/
def Lines.after (l : Lines) : Event → Lines
  | .scl v => { l with scl := v }
  | .sda v => { l with sda := v }
  | .sclDir _ => l
  | .sdaDir _ => l
  | .wait _ => l
  | .sample _ => l

/-- The data levels at the rising clock edges of a trace (41_bit_transport.md R125): an event
`SCL=1` while the clock was 0. -/
def risingEdgeData : Lines → List Event → List Level
  | _, [] => []
  | l, e :: es =>
    if e = .scl true ∧ l.scl = false then l.sda :: risingEdgeData (l.after e) es
    else risingEdgeData (l.after e) es

/-- The falling data edges of a trace with the clock high: start conditions (00_scope.md glossary). -/
def startConditions : Lines → List Event → Nat
  | _, [] => 0
  | l, e :: es =>
    (if e = .sda false ∧ l.sda = true ∧ l.scl = true then 1 else 0) + startConditions (l.after e) es

/-- The rising data edges of a trace with the clock high: stop conditions (00_scope.md glossary). -/
def stopConditions : Lines → List Event → Nat
  | _, [] => 0
  | l, e :: es =>
    (if e = .sda true ∧ l.sda = false ∧ l.scl = true then 1 else 0) + stopConditions (l.after e) es

/-- Bits assembled MSB first, as the reference decoder does (41_bit_transport.md R125). -/
def assemble (bits : List Level) : Nat := bits.foldl (fun n b => 2 * n + b.toNat) 0

/-- The trace with the waits erased (00_scope.md R8). -/
def eraseWaits (es : List Event) : List Event :=
  es.filter fun e => match e with
    | .wait _ => false
    | _ => true

/-- The minimum duration of a trace for given wait lengths (70_reset_and_hazards.md R256, R259):
the sum of its waits. -/
def minDuration (hold setup : Nat) : List Event → Nat
  | [] => 0
  | .wait .tHold :: es => hold + minDuration hold setup es
  | .wait .tSetup :: es => setup + minDuration hold setup es
  | _ :: es => minDuration hold setup es

/-- The outcome of a run from `s` is a next state, and the waits of the events the run added to the
trace add up to `total` (70_reset_and_hazards.md R259). -/
def AddsWaits (hold setup total : Nat) (s : State) (o : Host.Outcome State Fault Refusal) : Prop :=
  ∃ t es, o = .next t ∧ t.trace = es.reverse ++ s.trace ∧ minDuration hold setup es = total

/-! ### What stays the same -/

/-- The Engine State of the source is the same in both states: every byte of `RXBUF`, and the flag,
the cursor and the length (10_state.md R31 to R34). -/
structure SameEngineState (s t : State) : Prop where
  bytes : ∀ i, t.rxbuf.read i = s.rxbuf.read i
  hasUnread : t.hasUnread = s.hasUnread
  rdCursor : t.rdCursor = s.rdCursor
  expLen : t.expLen = s.expLen

/-- The pin latches and the trace are the same in both states (10_state.md R43). -/
structure SamePins (s t : State) : Prop where
  sclO : t.sclO = s.sclO
  sclOe : t.sclOe = s.sclOe
  sdaO : t.sdaO = s.sdaO
  sdaOe : t.sdaOe = s.sdaOe
  trace : t.trace = s.trace

/-- The fault record is the same in both states (10_state.md R40). -/
structure SameFaultRecord (s t : State) : Prop where
  fault : t.fault = s.fault
  faultCode : t.faultCode = s.faultCode
  faultCmd : t.faultCmd = s.faultCmd

/-! ### The invariant -/

/-- Position `u` of a procedure lies between the first action of a ReadBit and its
`SetSDADir(OUT)` (41_bit_transport.md R122): one of the six micro-steps before it releases the
data line. -/
def insideReadBit (p : Nat → Option MicroStep) (u : Nat) : Bool :=
  (List.range 6).any fun d => decide (d < u) && (p (u - 1 - d) == some (act (.setSdaDir .input)))

/-- The running command, if any, is inside a ReadBit. -/
def State.insideReadBit (s : State) : Bool :=
  s.engState == .busy &&
    match decode s.cmd with
    | .ok i => Sys2Proof.Machine.insideReadBit (procedureOf i) s.upc
    | .error _ => false

/-- What holds of a running command, beyond its position being one of its procedure: the checks it
passed at acceptance, and what it has done since. -/
def Underway (s : State) : Instr → Prop
  | .begin => (1 ≤ s.upc → s.sclOe = true) ∧ (2 ≤ s.upc → s.sdaOe = true) ∧ (47 ≤ s.upc → s.init = true)
  | .beginTx _ => s.init = true
  | .write _ => s.init = true
  | .endTx => s.init = true
  | .requestFrom _ n => s.init = true ∧ n ≤ 248 ∧
      (1 ≤ s.upc → s.expLen = BitVec.ofNat 8 n ∧ s.rdCursor = 0#8 ∧ s.hasUnread = true)
  | .available => True
  | .read => s.rdCursor < s.expLen

/-- The invariant of the machine. -/
structure State.Inv (s : State) : Prop where
  /-- The receive buffer is in canonical form. -/
  bufferForm : s.rxbuf.wf = true
  /-- `RD_CURSOR <= EXP_LEN` (10_state.md R35a). -/
  cursorInRange : s.rdCursor ≤ s.expLen
  /-- `EXP_LEN <= 248` (R35a). -/
  lengthInRange : s.expLen.toNat ≤ 248
  /-- `HAS_UNREAD = 0` implies `RD_CURSOR = EXP_LEN` (R35b, and R35c as its contrapositive). -/
  flagClear : s.hasUnread = false → s.rdCursor = s.expLen
  /-- `RXBUF[i] = 0` from `EXP_LEN` on (R35d). -/
  restZero : ∀ i, s.expLen.toNat ≤ i → s.rxbuf.read i = 0#8
  /-- `ENG_STATE = FAULTED` iff `FAULT = 1` (R41). -/
  faultState : s.engState = .faulted ↔ s.fault = true
  /-- The fault record is clear while no fault is recorded (R40, R213). -/
  noFault : s.fault = false → s.faultCode = 0#4 ∧ s.faultCmd = 0#32
  /-- A recorded fault has one of the codes 1 to 4 (60_exceptions.md R211). -/
  faultCodes : s.fault = true → 1 ≤ s.faultCode.toNat ∧ s.faultCode.toNat ≤ 4
  /-- From BEGIN's completion on the clock line is an output (40_line_control.md R112). -/
  clockDriven : s.init = true → s.sclOe = true
  /-- From BEGIN's completion on the data line is an output except inside a ReadBit (R112). -/
  dataDriven : s.init = true → s.sdaOe = !s.insideReadBit
  /-- Before BEGIN both lines are released (R112). -/
  released : s.init = false →
    (s.engState = .busy ∧ decode s.cmd = .ok .begin) ∨ (s.sclOe = false ∧ s.sdaOe = false)
  /-- A BUSY engine runs the command its latch CMD holds, at a position of its procedure. -/
  running : s.engState = .busy →
    ∃ i, decode s.cmd = .ok i ∧ (procedureOf i s.upc).isSome = true ∧ Underway s i

end Sys2Proof.Machine
end

