-- ==== Sys2Proof/Certificates/Slice0/Obligations.lean ====
section
/-! DEFINITION. The statements for the provers. Each docstring names the rule of spec/ it
formalises. -/

open Sys2Proof Sys2Proof.Machine

/-! ### Encoding (30_encoding.md) -/

/-- R88: the encoding of every command, `Decode(Enc(c)) = c` for every well-formed command, and
`Enc(Decode(w)) = w` for every legal word, with the rule's example. -/
def Obligations.DecodeInvertsEncode : Prop :=
  encode .begin = 0x00000001#32
  ∧ (∀ a, encode (.beginTx a) = 0#8 ++ 0#8 ++ a ++ 0#4 ++ 2#4)
  ∧ (∀ d, encode (.write d) = 0#8 ++ 0#8 ++ d ++ 0#4 ++ 3#4)
  ∧ encode .endTx = 0x00000004#32
  ∧ (∀ a n, encode (.requestFrom a n) = 0#8 ++ BitVec.ofNat 8 n ++ a ++ 0#4 ++ 5#4)
  ∧ encode .available = 0x00000006#32
  ∧ encode .read = 0x00000007#32
  ∧ (∀ i : Instr, i.WellFormed → decode (encode i) = .ok i)
  ∧ (∀ w i, decode w = .ok i → i.WellFormed ∧ encode i = w)
  ∧ encode (.requestFrom 0x50 3) = 0x00035005#32

/-- R84, R85: a word is a command iff it matches the command's row (mask and match), its operands
are its bits 15:8 and 23:16, no two rows match one word, and decoding is ILLEGAL exactly when no
row matches. -/
def Obligations.DecodeFollowsOpcodeRows : Prop :=
  ∀ w : Word,
    (w &&& 0xFFFFFFFF#32 = 0x00000001#32 ↔ decode w = .ok .begin)
    ∧ (w &&& 0xFFFF00FF#32 = 0x00000002#32 ↔ decode w = .ok (.beginTx (w.extractLsb' 8 8)))
    ∧ (w &&& 0xFFFF00FF#32 = 0x00000003#32 ↔ decode w = .ok (.write (w.extractLsb' 8 8)))
    ∧ (w &&& 0xFFFFFFFF#32 = 0x00000004#32 ↔ decode w = .ok .endTx)
    ∧ (w &&& 0xFF0000FF#32 = 0x00000005#32 ↔
        decode w = .ok (.requestFrom (w.extractLsb' 8 8) (w.extractLsb' 16 8).toNat))
    ∧ (w &&& 0xFFFFFFFF#32 = 0x00000006#32 ↔ decode w = .ok .available)
    ∧ (w &&& 0xFFFFFFFF#32 = 0x00000007#32 ↔ decode w = .ok .read)
    ∧ ((∃ e, decode w = .error e) ↔
        w &&& 0xFFFFFFFF#32 ≠ 0x00000001#32 ∧ w &&& 0xFFFF00FF#32 ≠ 0x00000002#32
        ∧ w &&& 0xFFFF00FF#32 ≠ 0x00000003#32 ∧ w &&& 0xFFFFFFFF#32 ≠ 0x00000004#32
        ∧ w &&& 0xFF0000FF#32 ≠ 0x00000005#32 ∧ w &&& 0xFFFFFFFF#32 ≠ 0x00000006#32
        ∧ w &&& 0xFFFFFFFF#32 ≠ 0x00000007#32)

/-- R83, R87: a nonzero reserved field or a reserved opcode makes the word illegal. R86: so does a
nonzero operand field the command does not use. -/
def Obligations.ReservedEncodingsAreIllegal : Prop :=
  ∀ w : Word,
    (w.extractLsb' 24 8 ≠ 0#8 ∨ w.extractLsb' 4 4 ≠ 0#4 → ∃ e, decode w = .error e)
    ∧ (w.extractLsb' 0 4 = 0#4 ∨ 8#4 ≤ w.extractLsb' 0 4 → ∃ e, decode w = .error e)
    ∧ (w.extractLsb' 0 4 = 1#4 ∨ w.extractLsb' 0 4 = 4#4 ∨ w.extractLsb' 0 4 = 6#4
        ∨ w.extractLsb' 0 4 = 7#4 →
        w.extractLsb' 8 8 ≠ 0#8 ∨ w.extractLsb' 16 8 ≠ 0#8 → ∃ e, decode w = .error e)
    ∧ (w.extractLsb' 0 4 = 2#4 ∨ w.extractLsb' 0 4 = 3#4 → w.extractLsb' 16 8 ≠ 0#8 →
        ∃ e, decode w = .error e)

/-- 95_test_vectors.md section 2.1: some words written out bit by bit decode to the commands they
stand for, or are illegal. -/
def Obligations.WrittenWordsDecode : Prop :=
  decode 0b00000000000000000000000000000001#32 = .ok .begin
  ∧ decode 0b00000000000000000101000000000010#32 = .ok (.beginTx 0x50)
  ∧ decode 0b00000000000000001010101100000011#32 = .ok (.write 0xAB)
  ∧ decode 0b00000000000000000000000000000100#32 = .ok .endTx
  ∧ decode 0b00000000000000110101000000000101#32 = .ok (.requestFrom 0x50 3)
  ∧ decode 0b00000000111110010101000000000101#32 = .ok (.requestFrom 0x50 249)
  ∧ decode 0b00000000000000000000000000000110#32 = .ok .available
  ∧ decode 0b00000000000000000000000000000111#32 = .ok .read
  ∧ decode 0b00000000000000010000000000000011#32 = .error .unusedOperand
  ∧ decode 0b00000001000000000000000000000001#32 = .error .reservedHigh

/-- R81: bit 7 of the address operand has no effect on any step of BEGIN_TX or REQUEST_FROM. -/
def Obligations.AddressBitSevenIsIgnored : Prop :=
  ∀ (a : Byte) (n : Nat) (s : State),
    exec (.beginTx a) s = exec (.beginTx (a ^^^ 0x80#8)) s
    ∧ exec (.requestFrom a n) s = exec (.requestFrom (a ^^^ 0x80#8) n) s

/-! ### Reset (70_reset_and_hazards.md) -/

/-- R242: the state after reset. -/
def Obligations.ResetLeavesTheBlockIdleAndEmpty : Prop :=
  State.reset.engState = .idle ∧ State.reset.cmdReady = true ∧ State.reset.init = false
  ∧ State.reset.fault = false ∧ State.reset.status = 0x00#8
  ∧ State.reset.sclOe = false ∧ State.reset.sdaOe = false
  ∧ State.reset.hasUnread = false ∧ State.reset.rdCursor = 0#8 ∧ State.reset.expLen = 0#8
  ∧ (∀ i, State.reset.rxbuf.read i = 0#8)

/-- R240, R241, with the values of R47: in every state, whatever ENG_STATE is and whatever is
offered, a step with `rst` high sets every piece of state to its reset value in that one step, with
no bus action, no response and no acceptance. (`CMD` and the working values have no value in R47;
nothing is stated of them.) -/
def Obligations.ResetWinsInEveryState : Prop :=
  ∀ s, rstNow s = true → ∃ t, step s = .next t
    ∧ (∀ i, t.rxbuf.read i = 0#8) ∧ t.hasUnread = false ∧ t.rdCursor = 0#8 ∧ t.expLen = 0#8
    ∧ t.engState = .idle ∧ t.rspData = 0x00#8 ∧ t.init = false
    ∧ t.fault = false ∧ t.faultCode = 0#4 ∧ t.faultCmd = 0x00000000#32 ∧ t.status = 0x00#8
    ∧ t.sclOe = false ∧ t.sdaOe = false ∧ t.sclO = true ∧ t.sdaO = true
    ∧ t.trace = s.trace ∧ t.responses = s.responses
    ∧ t.env.cmd = s.env.cmd ∧ t.env.sda = s.env.sda

/-! ### The step -/

/-- A step runs the decoded command: with `rst` low, an idle block that is offered a word latches it
and does the first step of the command it decodes to; a busy one does the next step of the command
its latch CMD holds. The step takes one level off the plan of `rst`, an acceptance one offer off
the host's plan (log entry 3). -/
def Obligations.StepRunsTheDecodedCommand : Prop :=
  ∀ s i, rstNow s = false →
    (∀ w, s.engState = .idle → offered s = some w → decode w = .ok i →
      step s = exec i { s with cmd := w
                               env := { s.env with rst := s.env.rst.tail, cmd := s.env.cmd.tail } })
    ∧ (s.engState = .busy → decode s.cmd = .ok i →
      step s = exec i { s with env := { s.env with rst := s.env.rst.tail } })

/-- R44: while the block is not ready no command is accepted: the latch keeps its word, and the
offer stays, neither lost nor faulted. -/
def Obligations.OffersWaitWhileNotReady : Prop :=
  ∀ s t, rstNow s = false → s.cmdReady = false → step s = .next t →
    t.env.cmd = s.env.cmd ∧ t.cmd = s.cmd ∧ t.fault = s.fault ∧ t.faultCode = s.faultCode
    ∧ t.faultCmd = s.faultCmd

/-- R36, R44: a ready block that is offered nothing waits; only the plans go on. -/
def Obligations.IdleBlockWaits : Prop :=
  ∀ s, rstNow s = false → s.engState = .idle → offered s = none →
    step s = .next { s with env := { s.env with rst := s.env.rst.tail, cmd := s.env.cmd.tail } }

/-- R212, R214: acceptance is one step. The checks run in order, the first that fails decides the
fault, and a command that passes them all starts at its procedure's first step. -/
def Obligations.AcceptanceChecksInOrder : Prop :=
  ∀ s w, rstNow s = false → s.engState = .idle → offered s = some w →
    step s = .next (
      let l : State := { s with cmd := w
                                env := { s.env with rst := s.env.rst.tail
                                                    cmd := s.env.cmd.tail } }
      let faulted (code : BitVec 4) : State :=
        { l with fault := true, faultCode := code, faultCmd := w, engState := .faulted }
      match decode w with
      | .error _ => faulted 1#4
      | .ok i =>
        if isBusCommand i = true ∧ s.init = false then faulted 2#4
        else if lengthOver i = true then faulted 3#4
        else if i = .read ∧ s.expLen ≤ s.rdCursor then faulted 4#4
        else { l with engState := .busy, upc := 0 })

/-- R213 (with the codes of R211): fault entry records the fault and the latched word, enters
FAULTED and changes nothing else; the host sees it on STATUS. -/
def Obligations.FaultEntryWritesOnlyTheRecord : Prop :=
  (∀ c s, raiseFault c s
      = { s with fault := true, faultCode := c.code, faultCmd := s.cmd, engState := .faulted })
  ∧ (∀ c s, (raiseFault c s).status.getLsbD 3 = true
      ∧ (raiseFault c s).status.extractLsb' 4 4 = c.code)
  ∧ FaultCause.illegalCommand.code = 1#4 ∧ FaultCause.notInitialized.code = 2#4
  ∧ FaultCause.lengthTooLarge.code = 3#4 ∧ FaultCause.readPastEnd.code = 4#4

/-- R213: a step that takes a fault has no other effect than the record: the Engine State, INIT, the
pin latches and the trace, RSP_DATA and the responses keep their values, and FAULT_CMD is the
offered word. -/
def Obligations.FaultedCommandHasNoEffect : Prop :=
  ∀ s t w, rstNow s = false → s.engState = .idle → offered s = some w → step s = .next t →
    t.engState = .faulted →
    t.fault = true ∧ t.faultCmd = w ∧ 1 ≤ t.faultCode.toNat ∧ t.faultCode.toNat ≤ 4
    ∧ SameEngineState s t ∧ t.init = s.init ∧ SamePins s t
    ∧ t.rspData = s.rspData ∧ t.responses = s.responses

/-- R215: while the block is faulted and `rst` is low it is not ready, and a step changes nothing of it:
no acceptance (the offer stays), no bus action, no response, no state. -/
def Obligations.FaultedBlockDoesNotChange : Prop :=
  ∀ s, rstNow s = false → s.engState = .faulted →
    s.cmdReady = false
    ∧ ∃ t, step s = .next t ∧ t = { s with env := t.env } ∧ t.env.cmd = s.env.cmd

/-- R41: every field of STATUS; FAULTED iff FAULT, IDLE iff neither BUSY nor FAULT, in every state
that meets the invariant; and the reset value. -/
def Obligations.StatusWordFields : Prop :=
  (∀ s : State,
    s.status.getLsbD 0 = decide (s.engState = .busy)
    ∧ s.status.getLsbD 1 = s.init ∧ s.status.getLsbD 2 = s.hasUnread
    ∧ s.status.getLsbD 3 = s.fault ∧ s.status.extractLsb' 4 4 = s.faultCode)
  ∧ (∀ s : State, s.Inv →
    (s.engState = .faulted ↔ s.status.getLsbD 3 = true)
    ∧ (s.engState = .idle ↔ s.status.getLsbD 0 = false ∧ s.status.getLsbD 3 = false))
  ∧ State.reset.status = 0x00#8

/-! ### Whole-machine rules -/

/-- The invariant holds right after reset. -/
def Obligations.ResetMeetsTheInvariant : Prop := State.reset.Inv

/-- Every step from a state that meets the invariant answers a state that meets it (R35, R41, R112,
R211 and the canonical form of the buffer). -/
def Obligations.EveryStepKeepsTheInvariant : Prop :=
  ∀ s t, s.Inv → step s = .next t → t.Inv

/-- R212 ("a command that passes Accept either responds or hangs in WaitAck; it never faults"), R108:
from a state that meets the invariant every step answers a next state: no step stops the machine. -/
def Obligations.NoStepStops : Prop :=
  ∀ s, s.Inv → ∃ t, step s = .next t

/-- R32: HAS_UNREAD is set only by REQUEST_FROM's first step and cleared only by AVAILABLE when
`RD_CURSOR = EXP_LEN`, or by reset; it is STATUS bit 2. -/
def Obligations.UnreadFlagWriters : Prop :=
  ∀ s t, step s = .next t →
    (s.hasUnread = false → t.hasUnread = true →
      s.engState = .busy ∧ s.upc = 0 ∧ ∃ a n, decode s.cmd = .ok (.requestFrom a n))
    ∧ (s.hasUnread = true → t.hasUnread = false →
      rstNow s = true
      ∨ (s.engState = .busy ∧ decode s.cmd = .ok .available ∧ s.rdCursor = s.expLen))
    ∧ s.status.getLsbD 2 = s.hasUnread

/-- R39: INIT is set only by a running BEGIN, and nothing but reset clears it. -/
def Obligations.InitFlagWriters : Prop :=
  ∀ s t, step s = .next t →
    (s.init = false → t.init = true → s.engState = .busy ∧ decode s.cmd = .ok .begin)
    ∧ (s.init = true → t.init = false → rstNow s = true)

/-- R31, R60: only a running REQUEST_FROM, or reset, changes a byte of the receive buffer. -/
def Obligations.BufferWriters : Prop :=
  ∀ s t i, step s = .next t → t.rxbuf.read i ≠ s.rxbuf.read i →
    rstNow s = true ∨ (s.engState = .busy ∧ ∃ a n, decode s.cmd = .ok (.requestFrom a n))

/-- R111: in a step without reset the pin latches and the trace stay as they are, or a running
command does one bus action, which writes them; a reset writes the latches' values of R47. -/
def Obligations.PinsChangeOnlyWithABusAction : Prop :=
  ∀ s t, step s = .next t →
    (rstNow s = false →
      SamePins s t ∨ (s.engState = .busy ∧ ∃ a : Action, SamePins (busAction a s) t))
    ∧ (rstNow s = true →
      t.sclO = true ∧ t.sdaO = true ∧ t.sclOe = false ∧ t.sdaOe = false ∧ t.trace = s.trace)

/-- R38: a completion is one response and the return to IDLE: in a step without reset the responses
grow by exactly RSP_DATA when a busy engine goes idle, and stay in every other step (a fault, an
acceptance, a bus action, a wait); AVAILABLE responds 0 or 1, READ the byte it read, every other
command 0x00; a reset responds nothing. -/
def Obligations.EachCompletionRespondsOnce : Prop :=
  ∀ s t, step s = .next t →
    (rstNow s = true → t.responses = s.responses)
    ∧ (rstNow s = false →
      (s.engState = .busy → t.engState = .idle →
        t.responses = t.rspData :: s.responses
        ∧ (decode s.cmd ≠ .ok .available → decode s.cmd ≠ .ok .read → t.rspData = 0x00#8)
        ∧ (decode s.cmd = .ok .available → t.rspData = 0x00#8 ∨ t.rspData = 0x01#8)
        ∧ (decode s.cmd = .ok .read → t.rspData = s.rxbuf.read s.rdCursor.toNat))
      ∧ (¬(s.engState = .busy ∧ t.engState = .idle) →
        t.responses = s.responses ∧ t.rspData = s.rspData))

/-- R11: the parameter P_SDA_LATCH is fixed: no step, not even reset, changes it. -/
def Obligations.LatchParameterIsFixed : Prop :=
  ∀ s t, step s = .next t → t.sdaLatch = s.sdaLatch

/-! ### Line Control (40_line_control.md) -/

/-- R101 to R105: what each bus action but the sample writes and the event it appends; everything else
is unchanged. -/
def Obligations.BusActionsWriteTheirLatches : Prop :=
  ∀ s : State,
    (∀ l, busAction (.setScl l) s = { s with sclO := l, trace := .scl l :: s.trace })
    ∧ (∀ l, busAction (.setSda l) s = { s with sdaO := l, trace := .sda l :: s.trace })
    ∧ busAction (.setSclDir .out) s = { s with sclOe := true, trace := .sclDir .out :: s.trace }
    ∧ busAction (.setSclDir .input) s
        = { s with sclOe := false, trace := .sclDir .input :: s.trace }
    ∧ busAction (.setSdaDir .out) s = { s with sdaOe := true, trace := .sdaDir .out :: s.trace }
    ∧ (s.sdaLatch = .retain → busAction (.setSdaDir .input) s
        = { s with sdaOe := false, trace := .sdaDir .input :: s.trace })
    ∧ (s.sdaLatch = .clear → busAction (.setSdaDir .input) s
        = { s with sdaOe := false, sdaO := false, trace := .sdaDir .input :: s.trace })
    ∧ (∀ d, busAction (.wait d) s = { s with trace := .wait d :: s.trace })

/-- R106: a sample puts the environment's level in the working value `b` and appends one event; no
latch and no register is written. Where the level comes from is the model's (log entry 4): the next
planned one, or a free value after the plan's end. -/
def Obligations.SampleTakesTheEnvironmentsLevel : Prop :=
  ∀ s : State,
    (∀ l rest, s.env.sda = l :: rest → busAction .sample s
        = { s with b := l, trace := .sample l :: s.trace, env := { s.env with sda := rest } })
    ∧ (s.env.sda = [] → busAction .sample s
        = { s with b := Config.sdaLevel s.env.draws
                   trace := .sample (Config.sdaLevel s.env.draws) :: s.trace
                   env := { s.env with draws := s.env.draws + 1 } })

/-- R36, R160: each step of a running command is the micro-step its procedure has at the sequencer's
position: a bus action (then the next position, but for the working values and WaitAck's loop), a
line of register updates, or the response.
What the working values `b` and `acc` hold outside the procedure that uses them is the model's choice
(log entry 17). -/
def Obligations.RunningCommandDoesItsNextMicroStep : Prop :=
  ∀ i s, s.engState = .busy →
    (∀ a, procedureOf i s.upc = some (.bus a .nothing) →
      exec i s = .next { busAction a s with upc := s.upc + 1 })
    ∧ (∀ a, procedureOf i s.upc = some (.bus a .againUnlessAck) →
      exec i s = .next { busAction a s with
        upc := if (busAction a s).b = true then s.upc - 7 else s.upc + 1 })
    ∧ (∀ a j, procedureOf i s.upc = some (.bus a (.shift j)) →
      exec i s = .next { busAction a s with
        acc := shiftIn j s.acc (busAction a s).b, upc := s.upc + 1 })
    ∧ (procedureOf i s.upc = some .setInit →
      exec i s = .next { s with init := true, upc := s.upc + 1 })
    ∧ (∀ v, procedureOf i s.upc = some (.respond v) →
      exec i s = .next { s with
        rspData := v, responses := v :: s.responses, engState := .idle, upc := 0 })
    ∧ (∀ n, procedureOf i s.upc = some (.openRead n) →
      exec i s = .next { s with
        hasUnread := true, rdCursor := 0#8, expLen := BitVec.ofNat 8 n, rxbuf := [], upc := s.upc + 1 })
    ∧ (∀ j, procedureOf i s.upc = some (.storeByte j) → j < 248 →
      exec i s = .next { s with rxbuf := s.rxbuf.write j s.acc, upc := s.upc + 1 })
    ∧ (procedureOf i s.upc = some .available → s.rdCursor = s.expLen →
      exec i s = .next { s with
        hasUnread := false, rspData := 0x00#8, responses := 0x00#8 :: s.responses
        engState := .idle, upc := 0 })
    ∧ (procedureOf i s.upc = some .available → s.rdCursor ≠ s.expLen →
      exec i s = .next { s with
        rspData := 0x01#8, responses := 0x01#8 :: s.responses, engState := .idle, upc := 0 })
    ∧ (procedureOf i s.upc = some .read → s.rdCursor.toNat < 248 →
      exec i s = .next { s with
        rdCursor := s.rdCursor + 1#8, rspData := s.rxbuf.read s.rdCursor.toNat
        responses := s.rxbuf.read s.rdCursor.toNat :: s.responses, engState := .idle, upc := 0 })

/-! ### Bit Transport (41_bit_transport.md) -/

/-- R120, R121: `WriteBits(value, n)` from any state: its trace is the bits `value[n-1]` down to
`value[0]`, one bit cycle of five actions each; afterwards the clock latch is 0 and the data latch
holds bit 0; at each of its `n` rising clock edges the data latch holds the bit being sent; nothing
else changes. -/
def Obligations.WriteBitsSendsMsbFirst : Prop :=
  ∀ (v : Byte) (n : Nat) (s : State), 1 ≤ n → n ≤ 8 →
    ∃ es : List Event,
      es = ((List.range n).map fun j => v.getLsbD (n - 1 - j)).flatMap evBit
      ∧ es.length = 5 * n
      ∧ (es.filter fun e => e == .wait .tHold).length = n
      ∧ risingEdgeData s.lines es = (List.range n).map (fun j => v.getLsbD (n - 1 - j))
      ∧ runSteps (writeBits v n) s
        = .next { s with sclO := false, sdaO := v.getLsbD 0, trace := es.reverse ++ s.trace
                         upc := s.upc + 5 * n }

/-- R125: the reference decoder, which records the data level at each rising clock edge and assembles
the records MSB first, returns `value[n-1:0]` for the trace that WriteBits adds. The segment does
not change SDA_OE, so a segment that starts with `SDA_OE = 1` is a write-direction segment. -/
def Obligations.SerializerRoundTrip : Prop :=
  ∀ (v : Byte) (n : Nat) (s t : State), 1 ≤ n → n ≤ 8 → runSteps (writeBits v n) s = .next t →
    ∃ es : List Event, t.trace = es.reverse ++ s.trace
      ∧ assemble (risingEdgeData s.lines es) = v.toNat % 2 ^ n
      ∧ t.sdaOe = s.sdaOe

/-- R122, R123: `ReadBit()` with the environment giving `l`: its eight events in order, the sample
after the hold and before the falling edge, the result in `b`, the data line an output again, and
`SDA_O` kept under RETAIN and 0 under CLEAR. -/
def Obligations.ReadBitSamplesAfterTheHold : Prop :=
  ∀ (s : State) (l : Level) (rest : List Level), s.env.sda = l :: rest →
    runSteps (readBit .nothing) s
      = .next { s with
          sclO := false, sdaOe := true, sdaO := if s.sdaLatch = .clear then false else s.sdaO
          b := l, env := { s.env with sda := rest }
          trace := [Event.wait .tSetup, .sdaDir .out, .scl false, .sample l, .wait .tHold,
                    .scl true, .scl false, .sdaDir .input] ++ s.trace
          upc := s.upc + 8 }

/-- R124: `ReadByte()` with the environment giving the bits of `v`, MSB first, leaves `v` in `acc`
whatever `acc` held before, in 64 actions with 8 rising clock edges. -/
def Obligations.ReadByteAssemblesMsbFirst : Prop :=
  ∀ (s : State) (v : Byte) (rest : List Level), s.env.sda = bitsOf v ++ rest →
    ∃ t, runSteps readByte s = .next t
      ∧ t.acc = v ∧ t.env.sda = rest ∧ t.trace = (evReadByte v).reverse ++ s.trace
      ∧ (evReadByte v).length = 64 ∧ (risingEdgeData s.lines (evReadByte v)).length = 8
      ∧ v.toNat = assemble (bitsOf v) ∧ t.upc = s.upc + 64 ∧ SameEngineState s t

/-! ### Transaction Framing (42_framing.md) -/

/-- R140, R142: the start and stop sequences and the latches they leave. -/
def Obligations.StartAndStopSequences : Prop :=
  ∀ s : State,
    runSteps start s = .next { s with
      sclO := true, sdaO := false, trace := evStart.reverse ++ s.trace, upc := s.upc + 7 }
    ∧ runSteps stop s = .next { s with
      sclO := true, sdaO := true, trace := evStop.reverse ++ s.trace, upc := s.upc + 7 }

/-- R141: entered with the clock low, or with clock and data high, Start makes one falling data edge
with the clock high and no rising one. -/
def Obligations.StartMakesOneStartCondition : Prop :=
  ∀ s t : State, s.sclO = false ∨ (s.sclO = true ∧ s.sdaO = true) → runSteps start s = .next t →
    ∃ es, t.trace = es.reverse ++ s.trace
      ∧ startConditions s.lines es = 1 ∧ stopConditions s.lines es = 0

/-- R143: Stop makes a stop condition on the wire iff `SDA_O = 0` at its entry, and no start
condition; the bus ends at the idle levels in either case. -/
def Obligations.StopConditionIffDataLow : Prop :=
  ∀ s t : State, runSteps stop s = .next t →
    t.sclO = true ∧ t.sdaO = true
    ∧ ∃ es, t.trace = es.reverse ++ s.trace
      ∧ stopConditions s.lines es = (if s.sdaO = false then 1 else 0)
      ∧ startConditions s.lines es = 0

/-- R143, R255: END_TX after WRITE d makes a stop condition iff `d[0] = 0` under RETAIN, and always
under CLEAR. Steps are counted as log entry 1 reads them. -/
def Obligations.StopAfterWriteDependsOnLastBit : Prop :=
  ∀ (s : State) (d : Byte) (k : Nat) (rest : List Level),
    s.engState = .idle → s.init = true → s.env.sda = List.replicate k true ++ false :: rest →
    ∃ t u es, execRun (.write d) (50 + 8 * k) s = .next t ∧ execRun .endTx 9 t = .next u
      ∧ u.trace = es.reverse ++ t.trace
      ∧ stopConditions t.lines es
          = (if s.sdaLatch = .clear ∨ d.getLsbD 0 = false then 1 else 0)

/-- R144: at the WaitAck of BEGIN_TX (position 47), WRITE (40) or REQUEST_FROM (48), with `k` samples
of 1 and then a 0, the loop ends after `8 (k + 1)` actions with that trace, at the next position. A
loop test takes no step of its own (the model's reading, log entry 1).
What the working values `b` and `acc` hold outside the procedure that uses them is the model's choice
(log entry 17). -/
def Obligations.WaitAckEndsAtTheFirstLow : Prop :=
  ∀ (i : Instr) (s : State) (k : Nat) (rest : List Level),
    s.engState = .busy → s.env.sda = List.replicate k true ++ false :: rest →
    (∃ a, i = .beginTx a ∧ s.upc = 47) ∨ (∃ d, i = .write d ∧ s.upc = 40)
      ∨ (∃ a n, i = .requestFrom a n ∧ s.upc = 48) →
    (evAck k).length = 8 * (k + 1)
    ∧ execRun i (8 * (k + 1)) s
      = .next { s with
          sclO := false, sdaOe := true, sdaO := if s.sdaLatch = .clear then false else s.sdaO
          b := false, env := { s.env with sda := rest }
          trace := (evAck k).reverse ++ s.trace, upc := s.upc + 8 }

/-- R145, R218: while every sample is 1, WaitAck goes on without bound: after any number `m` of
iterations the command is still BUSY at WaitAck's first position, with no response and no fault.
Position 47 is BEGIN_TX's WaitAck, 40 is WRITE's, 48 is REQUEST_FROM's. A loop test takes no step
of its own (the model's reading, log entry 1). -/
def Obligations.UnansweredAckWaitGoesOn : Prop :=
  ∀ (i : Instr) (s : State) (m : Nat) (rest : List Level),
    s.engState = .busy → s.env.sda = List.replicate m true ++ rest →
    (∃ a, i = .beginTx a ∧ s.upc = 47) ∨ (∃ d, i = .write d ∧ s.upc = 40)
      ∨ (∃ a n, i = .requestFrom a n ∧ s.upc = 48) →
    ∃ t, execRun i (8 * m) s = .next t
      ∧ t.engState = .busy ∧ t.upc = s.upc ∧ t.responses = s.responses ∧ t.fault = s.fault
      ∧ t.env.sda = rest
      ∧ t.trace = ((List.replicate m true).flatMap evReadBit).reverse ++ s.trace

/-- R146: before WaitAck an address phase sends the eight bits `a[6:0]`, direction, MSB first; `a[7]`
is not sent. -/
def Obligations.AddressPhaseSendsTheWireByte : Prop :=
  ∀ (a : Byte) (dir : Level) (s : State),
    ∃ ops, addressPhase a dir = ops ++ waitAck
      ∧ runSteps ops s = .next { s with
          sclO := false, sdaO := dir, trace := (evByte (wireByte a dir)).reverse ++ s.trace
          upc := s.upc + 40 }
      ∧ (∀ k, (wireByte a dir).getLsbD k = if k = 0 then dir else k < 8 && a.getLsbD (k - 1))

/-- R147: after byte `i` of `n` the engine sends 0 when a byte follows and 1 after the last. -/
def Obligations.MasterAckBitPolarity : Prop :=
  ∀ (i n : Nat) (s : State), i < n →
    runSteps (masterAckBit i n) s = .next { s with
      sclO := false, sdaO := decide (i + 1 = n)
      trace := (evBit (decide (i + 1 = n))).reverse ++ s.trace, upc := s.upc + 5 }

/-! ### Bus commands (43_bus_commands.md) -/

/-- R161, R162: BEGIN, accepted by an idle block whatever INIT is, runs to its response in 49 steps
(acceptance, 46 bus actions, INIT, response); the Engine State is untouched. Its trace has 22 waits
(46 events, 24 with the waits erased) and 10 rising clock edges, and makes a stop condition iff the
data latch was 0. Its word is 0x00000001. Steps are counted as log entry 1 reads them.
What the working values `b` and `acc` hold outside the procedure that uses them is the model's choice
(log entry 17). -/
def Obligations.BeginCompletes : Prop :=
  ∀ s : State, s.engState = .idle →
    exec .begin s = .next { s with engState := .busy, upc := 0 }
    ∧ execRun .begin 49 s = .next { s with
        init := true, sclO := true, sdaO := true, sclOe := true, sdaOe := true
        trace := evBegin.reverse ++ s.trace
        rspData := 0x00#8, responses := 0x00#8 :: s.responses, engState := .idle, upc := 0 }
    ∧ evBegin.length = 46 ∧ (eraseWaits evBegin).length = 24
    ∧ (risingEdgeData s.lines evBegin).length = 10
    ∧ stopConditions s.lines evBegin = (if s.sdaO = false then 1 else 0)
    ∧ encode .begin = 0x00000001#32

/-- R163: BEGIN_TX a, with INIT set and an acknowledge after `k` samples of 1, runs to its response in
`7 + 40 + 8 (k + 1)` bus actions; while `INIT = 0` it takes the fault NOT_INITIALIZED. Its word is
0x0000AA02 with AA = a. Steps are counted as log entry 1 reads them.
What the working values `b` and `acc` hold outside the procedure that uses them is the model's choice
(log entry 17). -/
def Obligations.BeginTxCompletes : Prop :=
  ∀ (s : State) (a : Byte) (k : Nat) (rest : List Level),
    s.engState = .idle → s.init = true → s.env.sda = List.replicate k true ++ false :: rest →
    exec (.beginTx a) s = .next { s with engState := .busy, upc := 0 }
    ∧ execRun (.beginTx a) (57 + 8 * k) s = .next { s with
        sclO := false, sdaO := false, sdaOe := true, b := false
        env := { s.env with sda := rest }, trace := (evBeginTx a k).reverse ++ s.trace
        rspData := 0x00#8, responses := 0x00#8 :: s.responses, engState := .idle, upc := 0 }
    ∧ (evBeginTx a k).length = 7 + 40 + 8 * (k + 1)
    ∧ encode (.beginTx a) = 0x0000#16 ++ a ++ 0x02#8
    ∧ (∀ u : State, u.engState = .idle → u.init = false →
      exec (.beginTx a) u = .next { u with
        fault := true, faultCode := 2#4, faultCmd := u.cmd, engState := .faulted })

/-- R165: WRITE d, with INIT set and an acknowledge after `k` samples of 1, sends all eight bits and
runs to its response in `40 + 8 (k + 1)` bus actions; while `INIT = 0` it takes the fault
NOT_INITIALIZED. Its word is 0x0000DD03 with DD = d. Steps are counted as log entry 1 reads them.
What the working values `b` and `acc` hold outside the procedure that uses them is the model's choice
(log entry 17). -/
def Obligations.WriteCompletes : Prop :=
  ∀ (s : State) (d : Byte) (k : Nat) (rest : List Level),
    s.engState = .idle → s.init = true → s.env.sda = List.replicate k true ++ false :: rest →
    exec (.write d) s = .next { s with engState := .busy, upc := 0 }
    ∧ execRun (.write d) (50 + 8 * k) s = .next { s with
        sclO := false, sdaO := if s.sdaLatch = .clear then false else d.getLsbD 0
        sdaOe := true, b := false
        env := { s.env with sda := rest }, trace := (evWrite d k).reverse ++ s.trace
        rspData := 0x00#8, responses := 0x00#8 :: s.responses, engState := .idle, upc := 0 }
    ∧ (evWrite d k).length = 40 + 8 * (k + 1)
    ∧ encode (.write d) = 0x0000#16 ++ d ++ 0x03#8
    ∧ (∀ u : State, u.engState = .idle → u.init = false →
      exec (.write d) u = .next { u with
        fault := true, faultCode := 2#4, faultCmd := u.cmd, engState := .faulted })

/-- R167, R168: END_TX, with INIT set, runs the stop sequence of 7 bus actions and responds, whatever
came before, from the idle levels with no start and no stop condition; while `INIT = 0` it takes the
fault NOT_INITIALIZED. Its word is 0x00000004. Steps are counted as log entry 1 reads them.
What the working values `b` and `acc` hold outside the procedure that uses them is the model's choice
(log entry 17). -/
def Obligations.EndTxCompletes : Prop :=
  ∀ s : State, s.engState = .idle → s.init = true →
    exec .endTx s = .next { s with engState := .busy, upc := 0 }
    ∧ execRun .endTx 9 s = .next { s with
        sclO := true, sdaO := true, trace := evStop.reverse ++ s.trace
        rspData := 0x00#8, responses := 0x00#8 :: s.responses, engState := .idle, upc := 0 }
    ∧ evStop.length = 7
    ∧ startConditions { scl := true, sda := true } evStop = 0
    ∧ stopConditions { scl := true, sda := true } evStop = 0
    ∧ encode .endTx = 0x00000004#32
    ∧ (∀ u : State, u.engState = .idle → u.init = false →
      exec (.endTx) u = .next { u with
        fault := true, faultCode := 2#4, faultCmd := u.cmd, engState := .faulted })

/-- R169, R170, R171: REQUEST_FROM a, n with INIT set, `n ≤ 248`, an acknowledge after `k` samples of
1 and then the bits of `n` bytes: it runs to its response in `7 + 40 + 8 (k + 1) + 69 n + 7` bus
actions, the bytes stand at indices 0 to `n - 1` and every other index is 0, whatever the buffer held.
While `INIT = 0` it takes the fault NOT_INITIALIZED, else with `n > 248` LENGTH_TOO_LARGE. Steps are
counted as log entry 1 reads them. -/
def Obligations.RequestFromCompletes : Prop :=
  ∀ (s : State) (a : Byte) (k : Nat) (bytes : List Byte) (rest : List Level),
    s.engState = .idle → s.init = true → bytes.length ≤ 248 →
    s.env.sda = readLevels k bytes ++ rest →
    exec (.requestFrom a bytes.length) s = .next { s with engState := .busy, upc := 0 }
    ∧ ∃ t, execRun (.requestFrom a bytes.length) (65 + 8 * k + 70 * bytes.length) s = .next t
      ∧ (∀ i, t.rxbuf.read i = bytes.getD i 0#8)
      ∧ t.hasUnread = true ∧ t.rdCursor = 0#8 ∧ t.expLen.toNat = bytes.length
      ∧ t.trace = (evRequestFrom a k bytes).reverse ++ s.trace
      ∧ (evRequestFrom a k bytes).length = 7 + 40 + 8 * (k + 1) + 69 * bytes.length + 7
      ∧ t.sclO = true ∧ t.sdaO = true ∧ t.sclOe = s.sclOe ∧ t.sdaOe = true
      ∧ t.init = true ∧ SameFaultRecord s t ∧ t.env.sda = rest
      ∧ t.rspData = 0x00#8 ∧ t.responses = 0x00#8 :: s.responses ∧ t.engState = .idle
      ∧ (∀ (n : Nat) (u : State), u.engState = .idle → u.init = false →
        exec (.requestFrom a n) u = .next { u with
          fault := true, faultCode := 2#4, faultCmd := u.cmd, engState := .faulted })
      ∧ (∀ (n : Nat) (u : State), u.engState = .idle → u.init = true → 248 < n →
        exec (.requestFrom a n) u = .next { u with
          fault := true, faultCode := 3#4, faultCmd := u.cmd, engState := .faulted })

/-- R170, R49: the Engine State updates of REQUEST_FROM's first line happen in the step after
acceptance, before any bus action, and show on STATUS even if the address phase then hangs. -/
def Obligations.RequestFromOpensBeforeTheBus : Prop :=
  ∀ (s : State) (a : Byte) (n : Nat), s.engState = .idle → s.init = true → n ≤ 248 →
    ∃ t, execRun (.requestFrom a n) 2 s = .next t
      ∧ t.hasUnread = true ∧ t.rdCursor = 0#8 ∧ t.expLen.toNat = n ∧ (∀ i, t.rxbuf.read i = 0#8)
      ∧ t.status.getLsbD 2 = true ∧ t.status.getLsbD 0 = true ∧ SamePins s t
      ∧ t.responses = s.responses

/-- R171, R255, with `P_SDA_LATCH = RETAIN`, this hardware's value: the events that an acknowledged
REQUEST_FROM adds to the trace, from an entry Start may have (R141), make one start condition and no
stop condition on the wire. Steps are counted as log entry 1 reads them. -/
def Obligations.RequestFromMakesNoStopCondition : Prop :=
  ∀ (s : State) (a : Byte) (k : Nat) (bytes : List Byte) (rest : List Level),
    s.engState = .idle → s.init = true → bytes.length ≤ 248 →
    s.env.sda = readLevels k bytes ++ rest → s.sdaLatch = .retain →
    s.sclO = false ∨ (s.sclO = true ∧ s.sdaO = true) →
    ∃ t es, execRun (.requestFrom a bytes.length) (65 + 8 * k + 70 * bytes.length) s = .next t
      ∧ t.trace = es.reverse ++ s.trace
      ∧ startConditions s.lines es = 1 ∧ stopConditions s.lines es = 0

/-! ### Receive buffer commands (44_receive_buffer.md) -/

/-- R190: AVAILABLE, legal whatever INIT is, responds 0 and clears the flag when
`RD_CURSOR = EXP_LEN`, else responds 1; nothing else changes. Its word is 0x00000006.
What the working values `b` and `acc` hold outside the procedure that uses them is the model's choice
(log entry 17). -/
def Obligations.AvailableCompletes : Prop :=
  ∀ s : State, s.engState = .idle →
    exec .available s = .next { s with engState := .busy, upc := 0 }
    ∧ (s.rdCursor = s.expLen → execRun .available 2 s = .next { s with
        hasUnread := false, rspData := 0x00#8, responses := 0x00#8 :: s.responses
        engState := .idle, upc := 0 })
    ∧ (s.rdCursor ≠ s.expLen → execRun .available 2 s = .next { s with
        rspData := 0x01#8, responses := 0x01#8 :: s.responses, engState := .idle, upc := 0 })
    ∧ encode .available = 0x00000006#32

/-- R192: READ with a byte left, legal whatever INIT is, responds with the byte at the cursor and
advances the cursor by one; HAS_UNREAD is not changed, even by the last byte. With no byte left it
takes the fault READ_PAST_END. Its word is 0x00000007.
What the working values `b` and `acc` hold outside the procedure that uses them is the model's choice
(log entry 17). -/
def Obligations.ReadCompletes : Prop :=
  ∀ s : State, s.engState = .idle → s.rdCursor < s.expLen → s.expLen.toNat ≤ 248 →
    exec .read s = .next { s with engState := .busy, upc := 0 }
    ∧ execRun .read 2 s = .next { s with
        rdCursor := s.rdCursor + 1#8, rspData := s.rxbuf.read s.rdCursor.toNat
        responses := s.rxbuf.read s.rdCursor.toNat :: s.responses, engState := .idle, upc := 0 }
    ∧ (s.rdCursor + 1#8).toNat = s.rdCursor.toNat + 1
    ∧ encode .read = 0x00000007#32
    ∧ (∀ u : State, u.engState = .idle → u.expLen ≤ u.rdCursor →
      exec .read u = .next { u with
        fault := true, faultCode := 4#4, faultCmd := u.cmd, engState := .faulted })

/-- R193: READ when `RD_CURSOR >= EXP_LEN` takes the fault READ_PAST_END with no other effect. -/
def Obligations.ReadPastEndFaults : Prop :=
  ∀ s : State, s.engState = .idle → s.expLen ≤ s.rdCursor →
    exec .read s = .next { s with
      fault := true, faultCode := 4#4, faultCmd := s.cmd, engState := .faulted }

/-- R191: in every state that meets the invariant the result of AVAILABLE equals the flag after it,
and a second AVAILABLE in a row returns the same and changes nothing but the response record. -/
def Obligations.AvailableIsIdempotent : Prop :=
  ∀ s t u : State, s.Inv → s.engState = .idle → execRun .available 2 s = .next t →
    execRun .available 2 t = .next u →
    t.rspData = (if t.hasUnread = true then 0x01#8 else 0x00#8)
    ∧ u = { t with responses := t.rspData :: t.responses }
    ∧ t.rdCursor = s.rdCursor ∧ t.expLen = s.expLen ∧ t.rxbuf = s.rxbuf

/-- R194: after a REQUEST_FROM of `N` bytes, run to its response, and `m ≤ N` READs, AVAILABLE returns 1
if `m < N` and 0 if `m = N`. Steps are counted as log entry 1 reads them. -/
def Obligations.AvailableCountsTheReads : Prop :=
  ∀ (s : State) (a : Byte) (k m : Nat) (bytes : List Byte) (rest : List Level),
    s.engState = .idle → s.init = true → bytes.length ≤ 248 →
    s.env.sda = readLevels k bytes ++ rest → m ≤ bytes.length →
    ∃ r t u, execRun (.requestFrom a bytes.length) (65 + 8 * k + 70 * bytes.length) s = .next r
      ∧ r.engState = .idle ∧ r.responses = 0x00#8 :: s.responses
      ∧ readTimes m r = .next t ∧ execRun .available 2 t = .next u
      ∧ t.rdCursor.toNat = m
      ∧ u.rspData = (if m < bytes.length then 0x01#8 else 0x00#8)

/-- R62, R192: a read transaction end to end: the bytes the bus environment sent, MSB first, are the
responses of as many READs, in arrival order. (Responses are kept newest first, log entry 8; steps are
counted as log entry 1 reads them.) -/
def Obligations.ReceivedBytesAreReadInOrder : Prop :=
  ∀ (s : State) (a : Byte) (k : Nat) (bytes : List Byte) (rest : List Level),
    s.engState = .idle → s.init = true → bytes.length ≤ 248 →
    s.env.sda = readLevels k bytes ++ rest →
    ∃ t u, execRun (.requestFrom a bytes.length) (65 + 8 * k + 70 * bytes.length) s = .next t
      ∧ readTimes bytes.length t = .next u
      ∧ u.responses = bytes.reverse ++ 0x00#8 :: s.responses

/-- R195: a READ gated by an AVAILABLE that returned 1 does not fault. -/
def Obligations.GatedReadDoesNotFault : Prop :=
  ∀ s t : State, s.Inv → s.engState = .idle → execRun .available 2 s = .next t →
    t.rspData = 0x01#8 →
    ∃ u, execRun .read 2 t = .next u ∧ u.fault = false ∧ u.engState = .idle

/-! ### Frames -/

/-- The frame of BEGIN, BEGIN_TX, WRITE and END_TX, for every step they answer with a next state:
they leave the Engine State (every byte of the buffer), CMD, the byte accumulator and the parameter;
only BEGIN changes INIT and SCL_OE; the fault record changes only at an acceptance; the response
registers only with the return to IDLE; the pins not at an acceptance; and they take nothing off the
host's plans.
What the working values `b` and `acc` hold outside the procedure that uses them is the model's choice
(log entry 17). -/
def Obligations.BusWriteCommandsFrame : Prop :=
  ∀ (i : Instr) (s t : State), (i = .begin ∨ (∃ a, i = .beginTx a) ∨ (∃ d, i = .write d) ∨ i = .endTx) →
    exec i s = .next t →
    SameEngineState s t ∧ t.cmd = s.cmd ∧ t.acc = s.acc ∧ t.sdaLatch = s.sdaLatch
    ∧ t.env.rst = s.env.rst ∧ t.env.cmd = s.env.cmd
    ∧ (i ≠ .begin → t.init = s.init ∧ t.sclOe = s.sclOe)
    ∧ (i = .begin ∨ i = .endTx → t.b = s.b ∧ t.env = s.env)
    ∧ (i = .begin ∨ s.engState ≠ .idle → SameFaultRecord s t)
    ∧ (t.engState ≠ .idle → t.rspData = s.rspData ∧ t.responses = s.responses)
    ∧ (s.engState = .idle → SamePins s t ∧ t.init = s.init)

/-- The frame of REQUEST_FROM: INIT, CMD, SCL_OE, the parameter and the host's plans stay; the flag,
the cursor and the length change only in its first line; and a step stores only at the index of
the `storeByte` its procedure has at the sequencer's position: every other byte reads as before,
and in a step that neither stores nor zeroes every byte does. -/
def Obligations.RequestFromFrame : Prop :=
  ∀ (a : Byte) (n : Nat) (s t : State), exec (.requestFrom a n) s = .next t →
    t.init = s.init ∧ t.cmd = s.cmd ∧ t.sclOe = s.sclOe ∧ t.sdaLatch = s.sdaLatch
    ∧ t.env.rst = s.env.rst ∧ t.env.cmd = s.env.cmd
    ∧ (s.engState ≠ .idle → SameFaultRecord s t)
    ∧ (t.engState ≠ .idle → t.rspData = s.rspData ∧ t.responses = s.responses)
    ∧ (s.engState = .idle → SamePins s t ∧ SameEngineState s t)
    ∧ (s.engState = .busy → requestProcedure a n s.upc ≠ some (.openRead n) →
        t.hasUnread = s.hasUnread ∧ t.rdCursor = s.rdCursor ∧ t.expLen = s.expLen
        ∧ ∀ j, requestProcedure a n s.upc ≠ some (.storeByte j) →
            t.rxbuf.read j = s.rxbuf.read j)

/-- R169: byte `i` of `n` is stored right behind its eight ReadBits (position `56 + 70 i + 64`) and
before its master ack bit: that step writes `acc` at index `i` and no other byte. (The premise on
the buffer's form is a clause of the invariant.) -/
def Obligations.RequestFromStoresEachByte : Prop :=
  ∀ (a : Byte) (n i : Nat) (s : State), i < n → n ≤ 248 → s.engState = .busy →
    s.upc = 56 + 70 * i + 64 → s.rxbuf.wf = true →
    requestProcedure a n s.upc = some (.storeByte i)
    ∧ ∃ t, exec (.requestFrom a n) s = .next t ∧ t.rxbuf.read i = s.acc
      ∧ (∀ j, j ≠ i → t.rxbuf.read j = s.rxbuf.read j)
      ∧ t.hasUnread = s.hasUnread ∧ t.rdCursor = s.rdCursor ∧ t.expLen = s.expLen
      ∧ SamePins s t ∧ t.upc = s.upc + 1

/-- The frame of AVAILABLE and READ: no bus action, no pin, no byte of the buffer, no length, not
INIT, not CMD, nothing of the plans; AVAILABLE leaves the cursor, READ the flag; READ's fault
record changes only at an acceptance, AVAILABLE's never.
What the working values `b` and `acc` hold outside the procedure that uses them is the model's choice
(log entry 17). -/
def Obligations.BufferCommandsFrame : Prop :=
  ∀ (i : Instr) (s t : State), (i = .available ∨ i = .read) → exec i s = .next t →
    SamePins s t ∧ (∀ j, t.rxbuf.read j = s.rxbuf.read j) ∧ t.expLen = s.expLen
    ∧ t.init = s.init ∧ t.cmd = s.cmd ∧ t.acc = s.acc ∧ t.b = s.b ∧ t.sdaLatch = s.sdaLatch
    ∧ t.env = s.env
    ∧ (i = .available → t.rdCursor = s.rdCursor) ∧ (i = .read → t.hasUnread = s.hasUnread)
    ∧ (i = .available ∨ s.engState ≠ .idle → SameFaultRecord s t)
    ∧ (s.engState = .idle → SameEngineState s t ∧ t.rspData = s.rspData ∧ t.responses = s.responses)

/-! ### Runs of the whole machine -/

/-- R160, R70: the machine's own steps run an accepted command exactly as the command's steps in a
row do, as long as no reset is planned and the command is busy in between. -/
def Obligations.MachineRunIsTheCommandsRun : Prop :=
  ∀ (s t : State) (w : Word) (i : Instr) (k : Nat),
    s.env.rst = [] → s.engState = .idle → offered s = some w → decode w = .ok i → 1 ≤ k →
    execRun i k (latchCommand w s) = .next t →
    (∀ j u, 1 ≤ j → j < k → execRun i j (latchCommand w s) = .next u → u.engState = .busy) →
    Host.Core.run Sys2Proof.core k s = .next t

/-- R259 (informative): the minimum durations, with `H` and `S` the lengths of T_HOLD and T_SETUP and
`k + 1` samples in a WaitAck: the waits of the events that each sequence adds to the trace, the
procedures run by themselves and the commands run from an idle block to their responses. Steps are
counted as log entry 1 reads them. -/
def Obligations.MinimumDurations : Prop :=
  ∀ (H S : Nat) (s : State),
    (∀ l, AddsWaits H S H s (runSteps (bitCycle l) s))
    ∧ AddsWaits H S (H + S) s (runSteps (readBit .nothing) s)
    ∧ AddsWaits H S (3 * H + S) s (runSteps start s)
    ∧ AddsWaits H S (3 * H + S) s (runSteps stop s)
    ∧ (s.engState = .idle →
      AddsWaits H S (21 * H + S) s (execRun .begin 49 s)
      ∧ AddsWaits H S 0 s (execRun .available 2 s)
      ∧ (s.rdCursor < s.expLen → s.expLen.toNat ≤ 248 → AddsWaits H S 0 s (execRun .read 2 s)))
    ∧ (s.engState = .idle → s.init = true →
      AddsWaits H S (3 * H + S) s (execRun .endTx 9 s)
      ∧ (∀ a k rest, s.env.sda = List.replicate k true ++ false :: rest →
        AddsWaits H S ((3 * H + S) + 8 * H + (k + 1) * (H + S)) s
          (execRun (.beginTx a) (57 + 8 * k) s))
      ∧ (∀ d k rest, s.env.sda = List.replicate k true ++ false :: rest →
        AddsWaits H S (8 * H + (k + 1) * (H + S)) s (execRun (.write d) (50 + 8 * k) s))
      ∧ (∀ a k bytes rest, bytes.length ≤ 248 → s.env.sda = readLevels k bytes ++ rest →
        AddsWaits H S
          (2 * (3 * H + S) + 8 * H + (k + 1) * (H + S) + bytes.length * (8 * (H + S) + H)) s
          (execRun (.requestFrom a bytes.length) (65 + 8 * k + 70 * bytes.length) s)))
end

