-- ==== Sys2Proof/Laws/Encoding.lean ====
section
/-! SUPPORT. The bits of a command word: each field of a CMD32 word, and a word from its fields. -/

namespace Sys2Proof

/-- Every bit of a CMD32 word (30_encoding.md R80). -/
theorem getLsbD_cmd32 (b a : Byte) (op : BitVec 4) (i : Nat) :
    (cmd32 b a op).getLsbD i =
      if i < 4 then op.getLsbD i else if i < 8 then false
      else if i < 16 then a.getLsbD (i - 8) else if i < 24 then b.getLsbD (i - 16) else false := by
  show (0#8 ++ b ++ a ++ 0#4 ++ op : BitVec (8 + 8 + 8 + 4 + 4)).getLsbD i = _
  simp only [BitVec.getLsbD_append]
  split_ifs <;> first | rfl | omega | skip
  all_goals simp only [BitVec.getLsbD_zero, Nat.sub_sub]

@[simp] theorem opField_cmd32 (b a : Byte) (op : BitVec 4) : opField (cmd32 b a op) = op := by
  apply BitVec.eq_of_getLsbD_eq
  intro i hi
  simp only [opField, BitVec.getLsbD_extractLsb', getLsbD_cmd32]
  simp [hi]

@[simp] theorem resLoField_cmd32 (b a : Byte) (op : BitVec 4) :
    resLoField (cmd32 b a op) = 0#4 := by
  apply BitVec.eq_of_getLsbD_eq
  intro i hi
  simp only [resLoField, BitVec.getLsbD_extractLsb', getLsbD_cmd32]
  interval_cases i <;> simp

@[simp] theorem aField_cmd32 (b a : Byte) (op : BitVec 4) : aField (cmd32 b a op) = a := by
  apply BitVec.eq_of_getLsbD_eq
  intro i hi
  simp only [aField, BitVec.getLsbD_extractLsb', getLsbD_cmd32]
  interval_cases i <;> simp

@[simp] theorem bField_cmd32 (b a : Byte) (op : BitVec 4) : bField (cmd32 b a op) = b := by
  apply BitVec.eq_of_getLsbD_eq
  intro i hi
  simp only [bField, BitVec.getLsbD_extractLsb', getLsbD_cmd32]
  interval_cases i <;> simp

@[simp] theorem resHiField_cmd32 (b a : Byte) (op : BitVec 4) :
    resHiField (cmd32 b a op) = 0#8 := by
  apply BitVec.eq_of_getLsbD_eq
  intro i hi
  simp only [resHiField, BitVec.getLsbD_extractLsb', getLsbD_cmd32]
  interval_cases i <;> simp

/-- A word with its reserved fields 0 is the CMD32 word of its other fields. -/
theorem cmd32_fields {w : Word} (h1 : resHiField w = 0#8) (h2 : resLoField w = 0#4) :
    cmd32 (bField w) (aField w) (opField w) = w := by
  apply BitVec.eq_of_getLsbD_eq
  intro i hi
  have hhi : ∀ j, j < 8 → w.getLsbD (24 + j) = false := fun j hj => by
    have := congrArg (fun x => x.getLsbD j) h1
    simpa [resHiField, BitVec.getLsbD_extractLsb', hj] using this
  have hlo : ∀ j, j < 4 → w.getLsbD (4 + j) = false := fun j hj => by
    have := congrArg (fun x => x.getLsbD j) h2
    simpa [resLoField, BitVec.getLsbD_extractLsb', hj] using this
  rw [getLsbD_cmd32]
  split_ifs with c1 c2 c3 c4
  · simp [opField, c1]
  · have := hlo (i - 4) (by omega)
    rw [show 4 + (i - 4) = i by omega] at this
    rw [this]
  · rw [aField, BitVec.getLsbD_extractLsb', show 8 + (i - 8) = i by omega]
    simp; omega
  · rw [bField, BitVec.getLsbD_extractLsb', show 16 + (i - 16) = i by omega]
    simp; omega
  · have := hhi (i - 24) (by omega)
    rw [show 24 + (i - 24) = i by omega] at this
    rw [this]

end Sys2Proof
end

