-- ==== Sys2Proof/Laws/Memory.lean ====
section
/-! SUPPORT. The laws of the receive buffer: read after write, and that every operation keeps the
canonical form. -/

namespace Sys2Proof.Machine

@[simp] theorem Memory.read_nil (i : Nat) : Memory.read [] i = 0#8 := rfl

@[simp] theorem Memory.read_zeroed (i : Nat) : Memory.read Memory.zeroed i = 0#8 := rfl

/-- Below the first index a canonical buffer reads 0x00. -/
theorem Memory.read_below {lo i : Nat} {m : Memory} (h : Memory.wfFrom lo m = true) (hi : i < lo) :
    m.read i = 0#8 := by
  induction m generalizing lo with
  | nil => rfl
  | cons c m ih =>
    obtain ⟨a, v⟩ := c
    simp only [Memory.wfFrom, Bool.and_eq_true, decide_eq_true_eq] at h
    have : i ≠ a := by omega
    simp only [Memory.read, if_neg this]
    exact ih h.2 (by omega)

/-- A lower start of a canonical buffer. -/
theorem Memory.wfFrom_mono {lo lo' : Nat} {m : Memory} (h : Memory.wfFrom lo m = true)
    (hl : lo' ≤ lo) : Memory.wfFrom lo' m = true := by
  cases m with
  | nil => rfl
  | cons c m =>
    obtain ⟨a, v⟩ := c
    simp only [Memory.wfFrom, Bool.and_eq_true, decide_eq_true_eq] at h ⊢
    exact ⟨⟨⟨by omega, h.1.1.2⟩, h.1.2⟩, h.2⟩

theorem Memory.wfFrom_write {lo i : Nat} {m : Memory} (v : Byte) (h : Memory.wfFrom lo m = true)
    (hlo : lo ≤ i) (hi : i < Config.cap) : Memory.wfFrom lo (m.write i v) = true := by
  induction m generalizing lo with
  | nil => by_cases hv : v = 0#8 <;> simp [Memory.write, Memory.wfFrom, hv, hlo, hi]
  | cons c m ih =>
    obtain ⟨a, w⟩ := c
    have hc := h
    simp only [Memory.wfFrom, Bool.and_eq_true, decide_eq_true_eq] at h
    obtain ⟨⟨⟨h1, h2⟩, h3⟩, h4⟩ := h
    rcases Nat.lt_trichotomy i a with hlt | heq | hgt
    · by_cases hv : v = 0#8
      · simp [Memory.write, hlt, hv, hc]
      · have : Memory.wfFrom (i + 1) ((a, w) :: m) = true := by
          simp [Memory.wfFrom, h2, h3, h4]; omega
        simp [Memory.write, hlt, hv, Memory.wfFrom, hlo, hi, h2, h4] at this ⊢
        exact this
    · subst heq
      by_cases hv : v = 0#8
      · simpa [Memory.write, hv] using Memory.wfFrom_mono h4 (by omega)
      · simp [Memory.write, hv, Memory.wfFrom, h1, h2, h4]
    · have h5 := ih h4 (by omega)
      have n1 : ¬ i < a := by omega
      have n2 : i ≠ a := by omega
      simp [Memory.write, n1, n2, Memory.wfFrom, h1, h2, h5] at h3 ⊢
      exact h3

/-- A write inside the buffer keeps the canonical form. -/
theorem Memory.wf_write {i : Nat} {m : Memory} (v : Byte) (h : m.wf = true) (hi : i < Config.cap) :
    (m.write i v).wf = true := Memory.wfFrom_write v h (Nat.zero_le i) hi

/-- The zeroed buffer is in canonical form. -/
@[simp] theorem Memory.wf_zeroed : Memory.wf Memory.zeroed = true := rfl

theorem Memory.read_write_from {lo i : Nat} {m : Memory} (v : Byte) (j : Nat)
    (h : Memory.wfFrom lo m = true) :
    (m.write i v).read j = if j = i then v else m.read j := by
  induction m generalizing lo with
  | nil =>
    by_cases hv : v = 0#8 <;> by_cases hj : j = i <;> simp [Memory.write, Memory.read, hv, hj]
  | cons c m ih =>
    obtain ⟨a, w⟩ := c
    simp only [Memory.wfFrom, Bool.and_eq_true, decide_eq_true_eq] at h
    rcases Nat.lt_trichotomy i a with hlt | heq | hgt
    · by_cases hv : v = 0#8
      · by_cases hj : j = i
        · subst hj
          have : j ≠ a := by omega
          simp [Memory.write, hlt, hv, Memory.read, this, Memory.read_below h.2 (by omega : j < a + 1)]
        · simp [Memory.write, hlt, hv, hj]
      · by_cases hj : j = i <;> simp [Memory.write, hlt, hv, Memory.read, hj]
    · subst heq
      by_cases hv : v = 0#8
      · by_cases hj : j = i
        · subst hj
          simp [Memory.write, hv, Memory.read_below h.2 (by omega : j < j + 1)]
        · simp [Memory.write, hv, Memory.read, hj]
      · by_cases hj : j = i <;> simp [Memory.write, hv, Memory.read, hj]
    · have n1 : ¬ i < a := by omega
      have n2 : i ≠ a := by omega
      simp only [Memory.write, if_neg n1, if_neg n2, Memory.read, ih h.2]
      by_cases hj : j = a
      · simp [hj]; omega
      · simp [hj]

/-- A write leaves every other index alone, whatever the memory's form. -/
theorem Memory.read_write_ne {m : Memory} {i j : Nat} (v : Byte) (h : j ≠ i) :
    (m.write i v).read j = m.read j := by
  induction m with
  | nil => unfold Memory.write; split <;> simp [Memory.read, h]
  | cons c m ih =>
    obtain ⟨a, w⟩ := c
    unfold Memory.write
    split_ifs with h1 h2 h3 h4
    · rfl
    · simp [Memory.read, h]
    · subst h3; simp [Memory.read, h]
    · subst h3; simp [Memory.read, h]
    · simp only [Memory.read, ih]

/-- Reading the byte just written gives the value written; every other index reads as before. -/
theorem Memory.read_write {m : Memory} (i : Nat) (v : Byte) (j : Nat) (h : m.wf = true) :
    (m.write i v).read j = if j = i then v else m.read j := Memory.read_write_from v j h

/-- Canonical buffers that read alike are equal. -/
theorem Memory.ext_of_read {lo : Nat} {m n : Memory} (hm : Memory.wfFrom lo m = true)
    (hn : Memory.wfFrom lo n = true) (h : ∀ i, m.read i = n.read i) : m = n := by
  induction m generalizing n lo with
  | nil =>
    cases n with
    | nil => rfl
    | cons c n =>
      obtain ⟨a, v⟩ := c
      have := h a
      simp [Memory.wfFrom] at hn
      simp [Memory.read] at this
      exact absurd this.symm hn.1.2
  | cons c m ih =>
    obtain ⟨a, v⟩ := c
    have hm' := hm
    simp only [Memory.wfFrom, Bool.and_eq_true, decide_eq_true_eq, bne_iff_ne, ne_eq] at hm
    cases n with
    | nil =>
      have := h a
      simp [Memory.read] at this
      exact absurd this hm.1.2
    | cons d n =>
      obtain ⟨a', v'⟩ := d
      have hn' := hn
      simp only [Memory.wfFrom, Bool.and_eq_true, decide_eq_true_eq, bne_iff_ne, ne_eq] at hn
      rcases Nat.lt_trichotomy a a' with hlt | heq | hgt
      · have h1 := h a
        have h2 : Memory.read ((a', v') :: n) a = 0#8 :=
          Memory.read_below (lo := a') (by simp [Memory.wfFrom, hn.1.1.2, hn.1.2, hn.2]) hlt
        simp [Memory.read] at h1
        exact absurd (h1.trans (by simpa [Memory.read] using h2)) hm.1.2
      · subst heq
        have hv : v = v' := by simpa [Memory.read] using h a
        subst hv
        have : m = n := by
          refine ih hm.2 hn.2 fun i => ?_
          by_cases hi : i = a
          · subst hi
            rw [Memory.read_below hm.2 (by omega), Memory.read_below hn.2 (by omega)]
          · simpa [Memory.read, hi] using h i
        rw [this]
      · have h1 := h a'
        have h2 : Memory.read ((a, v) :: m) a' = 0#8 :=
          Memory.read_below (lo := a) (by simp [Memory.wfFrom, hm.1.1.2, hm.1.2, hm.2]) hgt
        rw [h2] at h1
        simp [Memory.read] at h1
        exact absurd h1.symm hn.1.2

/-- What MemWrite can do: inside the buffer it writes the one byte, and it answers nothing else. -/
theorem memWrite_eq_some {i : Nat} {v : Byte} {s t : State} :
    memWrite i v s = some t ↔ i < Config.cap ∧ t = { s with rxbuf := s.rxbuf.write i v } := by
  unfold memWrite
  split <;> simp_all [eq_comm]

/-- What MemRead can do: inside the buffer it answers the byte, and it answers nothing else. -/
theorem memRead_eq_some {i : Nat} {v : Byte} {s : State} :
    memRead i s = some v ↔ i < Config.cap ∧ v = s.rxbuf.read i := by
  unfold memRead
  split <;> simp_all [eq_comm]

end Sys2Proof.Machine
end

