-- ==== Sys2Proof/Laws/State.lean ====
section
/-! SUPPORT. The fields of each state update, one lemma per field, so that no proof unfolds a
record update. -/

namespace Sys2Proof.Machine

/-! `advance` -/

@[simp] theorem advance_rxbuf (s : State) : (advance s).rxbuf = s.rxbuf := rfl
@[simp] theorem advance_hasUnread (s : State) : (advance s).hasUnread = s.hasUnread := rfl
@[simp] theorem advance_rdCursor (s : State) : (advance s).rdCursor = s.rdCursor := rfl
@[simp] theorem advance_expLen (s : State) : (advance s).expLen = s.expLen := rfl
@[simp] theorem advance_engState (s : State) : (advance s).engState = s.engState := rfl
@[simp] theorem advance_upc (s : State) : (advance s).upc = s.upc + 1 := rfl
@[simp] theorem advance_b (s : State) : (advance s).b = s.b := rfl
@[simp] theorem advance_acc (s : State) : (advance s).acc = s.acc := rfl
@[simp] theorem advance_cmd (s : State) : (advance s).cmd = s.cmd := rfl
@[simp] theorem advance_rspData (s : State) : (advance s).rspData = s.rspData := rfl
@[simp] theorem advance_init (s : State) : (advance s).init = s.init := rfl
@[simp] theorem advance_fault (s : State) : (advance s).fault = s.fault := rfl
@[simp] theorem advance_faultCode (s : State) : (advance s).faultCode = s.faultCode := rfl
@[simp] theorem advance_faultCmd (s : State) : (advance s).faultCmd = s.faultCmd := rfl
@[simp] theorem advance_sclO (s : State) : (advance s).sclO = s.sclO := rfl
@[simp] theorem advance_sclOe (s : State) : (advance s).sclOe = s.sclOe := rfl
@[simp] theorem advance_sdaO (s : State) : (advance s).sdaO = s.sdaO := rfl
@[simp] theorem advance_sdaOe (s : State) : (advance s).sdaOe = s.sdaOe := rfl
@[simp] theorem advance_sdaLatch (s : State) : (advance s).sdaLatch = s.sdaLatch := rfl
@[simp] theorem advance_trace (s : State) : (advance s).trace = s.trace := rfl
@[simp] theorem advance_responses (s : State) : (advance s).responses = s.responses := rfl
@[simp] theorem advance_env (s : State) : (advance s).env = s.env := rfl

/-! `respond` -/

@[simp] theorem respond_rxbuf (v : Byte) (s : State) : (respond v s).rxbuf = s.rxbuf := rfl
@[simp] theorem respond_hasUnread (v : Byte) (s : State) : (respond v s).hasUnread = s.hasUnread := rfl
@[simp] theorem respond_rdCursor (v : Byte) (s : State) : (respond v s).rdCursor = s.rdCursor := rfl
@[simp] theorem respond_expLen (v : Byte) (s : State) : (respond v s).expLen = s.expLen := rfl
@[simp] theorem respond_engState (v : Byte) (s : State) : (respond v s).engState = .idle := rfl
@[simp] theorem respond_upc (v : Byte) (s : State) : (respond v s).upc = 0 := rfl
@[simp] theorem respond_b (v : Byte) (s : State) : (respond v s).b = s.b := rfl
@[simp] theorem respond_acc (v : Byte) (s : State) : (respond v s).acc = s.acc := rfl
@[simp] theorem respond_cmd (v : Byte) (s : State) : (respond v s).cmd = s.cmd := rfl
@[simp] theorem respond_rspData (v : Byte) (s : State) : (respond v s).rspData = v := rfl
@[simp] theorem respond_init (v : Byte) (s : State) : (respond v s).init = s.init := rfl
@[simp] theorem respond_fault (v : Byte) (s : State) : (respond v s).fault = s.fault := rfl
@[simp] theorem respond_faultCode (v : Byte) (s : State) : (respond v s).faultCode = s.faultCode := rfl
@[simp] theorem respond_faultCmd (v : Byte) (s : State) : (respond v s).faultCmd = s.faultCmd := rfl
@[simp] theorem respond_sclO (v : Byte) (s : State) : (respond v s).sclO = s.sclO := rfl
@[simp] theorem respond_sclOe (v : Byte) (s : State) : (respond v s).sclOe = s.sclOe := rfl
@[simp] theorem respond_sdaO (v : Byte) (s : State) : (respond v s).sdaO = s.sdaO := rfl
@[simp] theorem respond_sdaOe (v : Byte) (s : State) : (respond v s).sdaOe = s.sdaOe := rfl
@[simp] theorem respond_sdaLatch (v : Byte) (s : State) : (respond v s).sdaLatch = s.sdaLatch := rfl
@[simp] theorem respond_trace (v : Byte) (s : State) : (respond v s).trace = s.trace := rfl
@[simp] theorem respond_responses (v : Byte) (s : State) : (respond v s).responses = v :: s.responses := rfl
@[simp] theorem respond_env (v : Byte) (s : State) : (respond v s).env = s.env := rfl

/-! `raiseFault` -/

@[simp] theorem raiseFault_rxbuf (c : FaultCause) (s : State) : (raiseFault c s).rxbuf = s.rxbuf := rfl
@[simp] theorem raiseFault_hasUnread (c : FaultCause) (s : State) : (raiseFault c s).hasUnread = s.hasUnread := rfl
@[simp] theorem raiseFault_rdCursor (c : FaultCause) (s : State) : (raiseFault c s).rdCursor = s.rdCursor := rfl
@[simp] theorem raiseFault_expLen (c : FaultCause) (s : State) : (raiseFault c s).expLen = s.expLen := rfl
@[simp] theorem raiseFault_engState (c : FaultCause) (s : State) : (raiseFault c s).engState = .faulted := rfl
@[simp] theorem raiseFault_upc (c : FaultCause) (s : State) : (raiseFault c s).upc = s.upc := rfl
@[simp] theorem raiseFault_b (c : FaultCause) (s : State) : (raiseFault c s).b = s.b := rfl
@[simp] theorem raiseFault_acc (c : FaultCause) (s : State) : (raiseFault c s).acc = s.acc := rfl
@[simp] theorem raiseFault_cmd (c : FaultCause) (s : State) : (raiseFault c s).cmd = s.cmd := rfl
@[simp] theorem raiseFault_rspData (c : FaultCause) (s : State) : (raiseFault c s).rspData = s.rspData := rfl
@[simp] theorem raiseFault_init (c : FaultCause) (s : State) : (raiseFault c s).init = s.init := rfl
@[simp] theorem raiseFault_fault (c : FaultCause) (s : State) : (raiseFault c s).fault = true := rfl
@[simp] theorem raiseFault_faultCode (c : FaultCause) (s : State) : (raiseFault c s).faultCode = c.code := rfl
@[simp] theorem raiseFault_faultCmd (c : FaultCause) (s : State) : (raiseFault c s).faultCmd = s.cmd := rfl
@[simp] theorem raiseFault_sclO (c : FaultCause) (s : State) : (raiseFault c s).sclO = s.sclO := rfl
@[simp] theorem raiseFault_sclOe (c : FaultCause) (s : State) : (raiseFault c s).sclOe = s.sclOe := rfl
@[simp] theorem raiseFault_sdaO (c : FaultCause) (s : State) : (raiseFault c s).sdaO = s.sdaO := rfl
@[simp] theorem raiseFault_sdaOe (c : FaultCause) (s : State) : (raiseFault c s).sdaOe = s.sdaOe := rfl
@[simp] theorem raiseFault_sdaLatch (c : FaultCause) (s : State) : (raiseFault c s).sdaLatch = s.sdaLatch := rfl
@[simp] theorem raiseFault_trace (c : FaultCause) (s : State) : (raiseFault c s).trace = s.trace := rfl
@[simp] theorem raiseFault_responses (c : FaultCause) (s : State) : (raiseFault c s).responses = s.responses := rfl
@[simp] theorem raiseFault_env (c : FaultCause) (s : State) : (raiseFault c s).env = s.env := rfl

/-! `startCommand` -/

@[simp] theorem startCommand_rxbuf (s : State) : (startCommand s).rxbuf = s.rxbuf := rfl
@[simp] theorem startCommand_hasUnread (s : State) : (startCommand s).hasUnread = s.hasUnread := rfl
@[simp] theorem startCommand_rdCursor (s : State) : (startCommand s).rdCursor = s.rdCursor := rfl
@[simp] theorem startCommand_expLen (s : State) : (startCommand s).expLen = s.expLen := rfl
@[simp] theorem startCommand_engState (s : State) : (startCommand s).engState = .busy := rfl
@[simp] theorem startCommand_upc (s : State) : (startCommand s).upc = 0 := rfl
@[simp] theorem startCommand_b (s : State) : (startCommand s).b = s.b := rfl
@[simp] theorem startCommand_acc (s : State) : (startCommand s).acc = s.acc := rfl
@[simp] theorem startCommand_cmd (s : State) : (startCommand s).cmd = s.cmd := rfl
@[simp] theorem startCommand_rspData (s : State) : (startCommand s).rspData = s.rspData := rfl
@[simp] theorem startCommand_init (s : State) : (startCommand s).init = s.init := rfl
@[simp] theorem startCommand_fault (s : State) : (startCommand s).fault = s.fault := rfl
@[simp] theorem startCommand_faultCode (s : State) : (startCommand s).faultCode = s.faultCode := rfl
@[simp] theorem startCommand_faultCmd (s : State) : (startCommand s).faultCmd = s.faultCmd := rfl
@[simp] theorem startCommand_sclO (s : State) : (startCommand s).sclO = s.sclO := rfl
@[simp] theorem startCommand_sclOe (s : State) : (startCommand s).sclOe = s.sclOe := rfl
@[simp] theorem startCommand_sdaO (s : State) : (startCommand s).sdaO = s.sdaO := rfl
@[simp] theorem startCommand_sdaOe (s : State) : (startCommand s).sdaOe = s.sdaOe := rfl
@[simp] theorem startCommand_sdaLatch (s : State) : (startCommand s).sdaLatch = s.sdaLatch := rfl
@[simp] theorem startCommand_trace (s : State) : (startCommand s).trace = s.trace := rfl
@[simp] theorem startCommand_responses (s : State) : (startCommand s).responses = s.responses := rfl
@[simp] theorem startCommand_env (s : State) : (startCommand s).env = s.env := rfl

/-! `latchCommand` -/

@[simp] theorem latchCommand_rxbuf (w : Word) (s : State) : (latchCommand w s).rxbuf = s.rxbuf := rfl
@[simp] theorem latchCommand_hasUnread (w : Word) (s : State) : (latchCommand w s).hasUnread = s.hasUnread := rfl
@[simp] theorem latchCommand_rdCursor (w : Word) (s : State) : (latchCommand w s).rdCursor = s.rdCursor := rfl
@[simp] theorem latchCommand_expLen (w : Word) (s : State) : (latchCommand w s).expLen = s.expLen := rfl
@[simp] theorem latchCommand_engState (w : Word) (s : State) : (latchCommand w s).engState = s.engState := rfl
@[simp] theorem latchCommand_upc (w : Word) (s : State) : (latchCommand w s).upc = s.upc := rfl
@[simp] theorem latchCommand_b (w : Word) (s : State) : (latchCommand w s).b = s.b := rfl
@[simp] theorem latchCommand_acc (w : Word) (s : State) : (latchCommand w s).acc = s.acc := rfl
@[simp] theorem latchCommand_cmd (w : Word) (s : State) : (latchCommand w s).cmd = w := rfl
@[simp] theorem latchCommand_rspData (w : Word) (s : State) : (latchCommand w s).rspData = s.rspData := rfl
@[simp] theorem latchCommand_init (w : Word) (s : State) : (latchCommand w s).init = s.init := rfl
@[simp] theorem latchCommand_fault (w : Word) (s : State) : (latchCommand w s).fault = s.fault := rfl
@[simp] theorem latchCommand_faultCode (w : Word) (s : State) : (latchCommand w s).faultCode = s.faultCode := rfl
@[simp] theorem latchCommand_faultCmd (w : Word) (s : State) : (latchCommand w s).faultCmd = s.faultCmd := rfl
@[simp] theorem latchCommand_sclO (w : Word) (s : State) : (latchCommand w s).sclO = s.sclO := rfl
@[simp] theorem latchCommand_sclOe (w : Word) (s : State) : (latchCommand w s).sclOe = s.sclOe := rfl
@[simp] theorem latchCommand_sdaO (w : Word) (s : State) : (latchCommand w s).sdaO = s.sdaO := rfl
@[simp] theorem latchCommand_sdaOe (w : Word) (s : State) : (latchCommand w s).sdaOe = s.sdaOe := rfl
@[simp] theorem latchCommand_sdaLatch (w : Word) (s : State) : (latchCommand w s).sdaLatch = s.sdaLatch := rfl
@[simp] theorem latchCommand_trace (w : Word) (s : State) : (latchCommand w s).trace = s.trace := rfl
@[simp] theorem latchCommand_responses (w : Word) (s : State) : (latchCommand w s).responses = s.responses := rfl
@[simp] theorem latchCommand_env (w : Word) (s : State) : (latchCommand w s).env = { s.env with cmd := s.env.cmd.tail } := rfl

/-! `idleStep` -/

@[simp] theorem idleStep_rxbuf (s : State) : (idleStep s).rxbuf = s.rxbuf := rfl
@[simp] theorem idleStep_hasUnread (s : State) : (idleStep s).hasUnread = s.hasUnread := rfl
@[simp] theorem idleStep_rdCursor (s : State) : (idleStep s).rdCursor = s.rdCursor := rfl
@[simp] theorem idleStep_expLen (s : State) : (idleStep s).expLen = s.expLen := rfl
@[simp] theorem idleStep_engState (s : State) : (idleStep s).engState = s.engState := rfl
@[simp] theorem idleStep_upc (s : State) : (idleStep s).upc = s.upc := rfl
@[simp] theorem idleStep_b (s : State) : (idleStep s).b = s.b := rfl
@[simp] theorem idleStep_acc (s : State) : (idleStep s).acc = s.acc := rfl
@[simp] theorem idleStep_cmd (s : State) : (idleStep s).cmd = s.cmd := rfl
@[simp] theorem idleStep_rspData (s : State) : (idleStep s).rspData = s.rspData := rfl
@[simp] theorem idleStep_init (s : State) : (idleStep s).init = s.init := rfl
@[simp] theorem idleStep_fault (s : State) : (idleStep s).fault = s.fault := rfl
@[simp] theorem idleStep_faultCode (s : State) : (idleStep s).faultCode = s.faultCode := rfl
@[simp] theorem idleStep_faultCmd (s : State) : (idleStep s).faultCmd = s.faultCmd := rfl
@[simp] theorem idleStep_sclO (s : State) : (idleStep s).sclO = s.sclO := rfl
@[simp] theorem idleStep_sclOe (s : State) : (idleStep s).sclOe = s.sclOe := rfl
@[simp] theorem idleStep_sdaO (s : State) : (idleStep s).sdaO = s.sdaO := rfl
@[simp] theorem idleStep_sdaOe (s : State) : (idleStep s).sdaOe = s.sdaOe := rfl
@[simp] theorem idleStep_sdaLatch (s : State) : (idleStep s).sdaLatch = s.sdaLatch := rfl
@[simp] theorem idleStep_trace (s : State) : (idleStep s).trace = s.trace := rfl
@[simp] theorem idleStep_responses (s : State) : (idleStep s).responses = s.responses := rfl
@[simp] theorem idleStep_env (s : State) : (idleStep s).env = { s.env with cmd := s.env.cmd.tail } := rfl

/-! `rstNext` -/

@[simp] theorem rstNext_rxbuf (s : State) : (rstNext s).rxbuf = s.rxbuf := rfl
@[simp] theorem rstNext_hasUnread (s : State) : (rstNext s).hasUnread = s.hasUnread := rfl
@[simp] theorem rstNext_rdCursor (s : State) : (rstNext s).rdCursor = s.rdCursor := rfl
@[simp] theorem rstNext_expLen (s : State) : (rstNext s).expLen = s.expLen := rfl
@[simp] theorem rstNext_engState (s : State) : (rstNext s).engState = s.engState := rfl
@[simp] theorem rstNext_upc (s : State) : (rstNext s).upc = s.upc := rfl
@[simp] theorem rstNext_b (s : State) : (rstNext s).b = s.b := rfl
@[simp] theorem rstNext_acc (s : State) : (rstNext s).acc = s.acc := rfl
@[simp] theorem rstNext_cmd (s : State) : (rstNext s).cmd = s.cmd := rfl
@[simp] theorem rstNext_rspData (s : State) : (rstNext s).rspData = s.rspData := rfl
@[simp] theorem rstNext_init (s : State) : (rstNext s).init = s.init := rfl
@[simp] theorem rstNext_fault (s : State) : (rstNext s).fault = s.fault := rfl
@[simp] theorem rstNext_faultCode (s : State) : (rstNext s).faultCode = s.faultCode := rfl
@[simp] theorem rstNext_faultCmd (s : State) : (rstNext s).faultCmd = s.faultCmd := rfl
@[simp] theorem rstNext_sclO (s : State) : (rstNext s).sclO = s.sclO := rfl
@[simp] theorem rstNext_sclOe (s : State) : (rstNext s).sclOe = s.sclOe := rfl
@[simp] theorem rstNext_sdaO (s : State) : (rstNext s).sdaO = s.sdaO := rfl
@[simp] theorem rstNext_sdaOe (s : State) : (rstNext s).sdaOe = s.sdaOe := rfl
@[simp] theorem rstNext_sdaLatch (s : State) : (rstNext s).sdaLatch = s.sdaLatch := rfl
@[simp] theorem rstNext_trace (s : State) : (rstNext s).trace = s.trace := rfl
@[simp] theorem rstNext_responses (s : State) : (rstNext s).responses = s.responses := rfl
@[simp] theorem rstNext_env (s : State) : (rstNext s).env = { s.env with rst := s.env.rst.tail } := rfl

/-! `emit` -/

@[simp] theorem emit_rxbuf (e : Event) (s : State) : (emit e s).rxbuf = s.rxbuf := rfl
@[simp] theorem emit_hasUnread (e : Event) (s : State) : (emit e s).hasUnread = s.hasUnread := rfl
@[simp] theorem emit_rdCursor (e : Event) (s : State) : (emit e s).rdCursor = s.rdCursor := rfl
@[simp] theorem emit_expLen (e : Event) (s : State) : (emit e s).expLen = s.expLen := rfl
@[simp] theorem emit_engState (e : Event) (s : State) : (emit e s).engState = s.engState := rfl
@[simp] theorem emit_upc (e : Event) (s : State) : (emit e s).upc = s.upc := rfl
@[simp] theorem emit_b (e : Event) (s : State) : (emit e s).b = s.b := rfl
@[simp] theorem emit_acc (e : Event) (s : State) : (emit e s).acc = s.acc := rfl
@[simp] theorem emit_cmd (e : Event) (s : State) : (emit e s).cmd = s.cmd := rfl
@[simp] theorem emit_rspData (e : Event) (s : State) : (emit e s).rspData = s.rspData := rfl
@[simp] theorem emit_init (e : Event) (s : State) : (emit e s).init = s.init := rfl
@[simp] theorem emit_fault (e : Event) (s : State) : (emit e s).fault = s.fault := rfl
@[simp] theorem emit_faultCode (e : Event) (s : State) : (emit e s).faultCode = s.faultCode := rfl
@[simp] theorem emit_faultCmd (e : Event) (s : State) : (emit e s).faultCmd = s.faultCmd := rfl
@[simp] theorem emit_sclO (e : Event) (s : State) : (emit e s).sclO = s.sclO := rfl
@[simp] theorem emit_sclOe (e : Event) (s : State) : (emit e s).sclOe = s.sclOe := rfl
@[simp] theorem emit_sdaO (e : Event) (s : State) : (emit e s).sdaO = s.sdaO := rfl
@[simp] theorem emit_sdaOe (e : Event) (s : State) : (emit e s).sdaOe = s.sdaOe := rfl
@[simp] theorem emit_sdaLatch (e : Event) (s : State) : (emit e s).sdaLatch = s.sdaLatch := rfl
@[simp] theorem emit_trace (e : Event) (s : State) : (emit e s).trace = e :: s.trace := rfl
@[simp] theorem emit_responses (e : Event) (s : State) : (emit e s).responses = s.responses := rfl
@[simp] theorem emit_env (e : Event) (s : State) : (emit e s).env = s.env := rfl

/-! `setScl` -/

@[simp] theorem setScl_rxbuf (l : Level) (s : State) : (setScl l s).rxbuf = s.rxbuf := rfl
@[simp] theorem setScl_hasUnread (l : Level) (s : State) : (setScl l s).hasUnread = s.hasUnread := rfl
@[simp] theorem setScl_rdCursor (l : Level) (s : State) : (setScl l s).rdCursor = s.rdCursor := rfl
@[simp] theorem setScl_expLen (l : Level) (s : State) : (setScl l s).expLen = s.expLen := rfl
@[simp] theorem setScl_engState (l : Level) (s : State) : (setScl l s).engState = s.engState := rfl
@[simp] theorem setScl_upc (l : Level) (s : State) : (setScl l s).upc = s.upc := rfl
@[simp] theorem setScl_b (l : Level) (s : State) : (setScl l s).b = s.b := rfl
@[simp] theorem setScl_acc (l : Level) (s : State) : (setScl l s).acc = s.acc := rfl
@[simp] theorem setScl_cmd (l : Level) (s : State) : (setScl l s).cmd = s.cmd := rfl
@[simp] theorem setScl_rspData (l : Level) (s : State) : (setScl l s).rspData = s.rspData := rfl
@[simp] theorem setScl_init (l : Level) (s : State) : (setScl l s).init = s.init := rfl
@[simp] theorem setScl_fault (l : Level) (s : State) : (setScl l s).fault = s.fault := rfl
@[simp] theorem setScl_faultCode (l : Level) (s : State) : (setScl l s).faultCode = s.faultCode := rfl
@[simp] theorem setScl_faultCmd (l : Level) (s : State) : (setScl l s).faultCmd = s.faultCmd := rfl
@[simp] theorem setScl_sclO (l : Level) (s : State) : (setScl l s).sclO = l := rfl
@[simp] theorem setScl_sclOe (l : Level) (s : State) : (setScl l s).sclOe = s.sclOe := rfl
@[simp] theorem setScl_sdaO (l : Level) (s : State) : (setScl l s).sdaO = s.sdaO := rfl
@[simp] theorem setScl_sdaOe (l : Level) (s : State) : (setScl l s).sdaOe = s.sdaOe := rfl
@[simp] theorem setScl_sdaLatch (l : Level) (s : State) : (setScl l s).sdaLatch = s.sdaLatch := rfl
@[simp] theorem setScl_trace (l : Level) (s : State) : (setScl l s).trace = .scl l :: s.trace := rfl
@[simp] theorem setScl_responses (l : Level) (s : State) : (setScl l s).responses = s.responses := rfl
@[simp] theorem setScl_env (l : Level) (s : State) : (setScl l s).env = s.env := rfl

/-! `setSda` -/

@[simp] theorem setSda_rxbuf (l : Level) (s : State) : (setSda l s).rxbuf = s.rxbuf := rfl
@[simp] theorem setSda_hasUnread (l : Level) (s : State) : (setSda l s).hasUnread = s.hasUnread := rfl
@[simp] theorem setSda_rdCursor (l : Level) (s : State) : (setSda l s).rdCursor = s.rdCursor := rfl
@[simp] theorem setSda_expLen (l : Level) (s : State) : (setSda l s).expLen = s.expLen := rfl
@[simp] theorem setSda_engState (l : Level) (s : State) : (setSda l s).engState = s.engState := rfl
@[simp] theorem setSda_upc (l : Level) (s : State) : (setSda l s).upc = s.upc := rfl
@[simp] theorem setSda_b (l : Level) (s : State) : (setSda l s).b = s.b := rfl
@[simp] theorem setSda_acc (l : Level) (s : State) : (setSda l s).acc = s.acc := rfl
@[simp] theorem setSda_cmd (l : Level) (s : State) : (setSda l s).cmd = s.cmd := rfl
@[simp] theorem setSda_rspData (l : Level) (s : State) : (setSda l s).rspData = s.rspData := rfl
@[simp] theorem setSda_init (l : Level) (s : State) : (setSda l s).init = s.init := rfl
@[simp] theorem setSda_fault (l : Level) (s : State) : (setSda l s).fault = s.fault := rfl
@[simp] theorem setSda_faultCode (l : Level) (s : State) : (setSda l s).faultCode = s.faultCode := rfl
@[simp] theorem setSda_faultCmd (l : Level) (s : State) : (setSda l s).faultCmd = s.faultCmd := rfl
@[simp] theorem setSda_sclO (l : Level) (s : State) : (setSda l s).sclO = s.sclO := rfl
@[simp] theorem setSda_sclOe (l : Level) (s : State) : (setSda l s).sclOe = s.sclOe := rfl
@[simp] theorem setSda_sdaO (l : Level) (s : State) : (setSda l s).sdaO = l := rfl
@[simp] theorem setSda_sdaOe (l : Level) (s : State) : (setSda l s).sdaOe = s.sdaOe := rfl
@[simp] theorem setSda_sdaLatch (l : Level) (s : State) : (setSda l s).sdaLatch = s.sdaLatch := rfl
@[simp] theorem setSda_trace (l : Level) (s : State) : (setSda l s).trace = .sda l :: s.trace := rfl
@[simp] theorem setSda_responses (l : Level) (s : State) : (setSda l s).responses = s.responses := rfl
@[simp] theorem setSda_env (l : Level) (s : State) : (setSda l s).env = s.env := rfl

/-! `setSclDir` -/

@[simp] theorem setSclDir_rxbuf (d : Dir) (s : State) : (setSclDir d s).rxbuf = s.rxbuf := rfl
@[simp] theorem setSclDir_hasUnread (d : Dir) (s : State) : (setSclDir d s).hasUnread = s.hasUnread := rfl
@[simp] theorem setSclDir_rdCursor (d : Dir) (s : State) : (setSclDir d s).rdCursor = s.rdCursor := rfl
@[simp] theorem setSclDir_expLen (d : Dir) (s : State) : (setSclDir d s).expLen = s.expLen := rfl
@[simp] theorem setSclDir_engState (d : Dir) (s : State) : (setSclDir d s).engState = s.engState := rfl
@[simp] theorem setSclDir_upc (d : Dir) (s : State) : (setSclDir d s).upc = s.upc := rfl
@[simp] theorem setSclDir_b (d : Dir) (s : State) : (setSclDir d s).b = s.b := rfl
@[simp] theorem setSclDir_acc (d : Dir) (s : State) : (setSclDir d s).acc = s.acc := rfl
@[simp] theorem setSclDir_cmd (d : Dir) (s : State) : (setSclDir d s).cmd = s.cmd := rfl
@[simp] theorem setSclDir_rspData (d : Dir) (s : State) : (setSclDir d s).rspData = s.rspData := rfl
@[simp] theorem setSclDir_init (d : Dir) (s : State) : (setSclDir d s).init = s.init := rfl
@[simp] theorem setSclDir_fault (d : Dir) (s : State) : (setSclDir d s).fault = s.fault := rfl
@[simp] theorem setSclDir_faultCode (d : Dir) (s : State) : (setSclDir d s).faultCode = s.faultCode := rfl
@[simp] theorem setSclDir_faultCmd (d : Dir) (s : State) : (setSclDir d s).faultCmd = s.faultCmd := rfl
@[simp] theorem setSclDir_sclO (d : Dir) (s : State) : (setSclDir d s).sclO = s.sclO := rfl
@[simp] theorem setSclDir_sclOe (d : Dir) (s : State) : (setSclDir d s).sclOe = d.drives := rfl
@[simp] theorem setSclDir_sdaO (d : Dir) (s : State) : (setSclDir d s).sdaO = s.sdaO := rfl
@[simp] theorem setSclDir_sdaOe (d : Dir) (s : State) : (setSclDir d s).sdaOe = s.sdaOe := rfl
@[simp] theorem setSclDir_sdaLatch (d : Dir) (s : State) : (setSclDir d s).sdaLatch = s.sdaLatch := rfl
@[simp] theorem setSclDir_trace (d : Dir) (s : State) : (setSclDir d s).trace = .sclDir d :: s.trace := rfl
@[simp] theorem setSclDir_responses (d : Dir) (s : State) : (setSclDir d s).responses = s.responses := rfl
@[simp] theorem setSclDir_env (d : Dir) (s : State) : (setSclDir d s).env = s.env := rfl

/-! `setSdaDir` -/

@[simp] theorem setSdaDir_rxbuf (d : Dir) (s : State) : (setSdaDir d s).rxbuf = s.rxbuf := rfl
@[simp] theorem setSdaDir_hasUnread (d : Dir) (s : State) : (setSdaDir d s).hasUnread = s.hasUnread := rfl
@[simp] theorem setSdaDir_rdCursor (d : Dir) (s : State) : (setSdaDir d s).rdCursor = s.rdCursor := rfl
@[simp] theorem setSdaDir_expLen (d : Dir) (s : State) : (setSdaDir d s).expLen = s.expLen := rfl
@[simp] theorem setSdaDir_engState (d : Dir) (s : State) : (setSdaDir d s).engState = s.engState := rfl
@[simp] theorem setSdaDir_upc (d : Dir) (s : State) : (setSdaDir d s).upc = s.upc := rfl
@[simp] theorem setSdaDir_b (d : Dir) (s : State) : (setSdaDir d s).b = s.b := rfl
@[simp] theorem setSdaDir_acc (d : Dir) (s : State) : (setSdaDir d s).acc = s.acc := rfl
@[simp] theorem setSdaDir_cmd (d : Dir) (s : State) : (setSdaDir d s).cmd = s.cmd := rfl
@[simp] theorem setSdaDir_rspData (d : Dir) (s : State) : (setSdaDir d s).rspData = s.rspData := rfl
@[simp] theorem setSdaDir_init (d : Dir) (s : State) : (setSdaDir d s).init = s.init := rfl
@[simp] theorem setSdaDir_fault (d : Dir) (s : State) : (setSdaDir d s).fault = s.fault := rfl
@[simp] theorem setSdaDir_faultCode (d : Dir) (s : State) : (setSdaDir d s).faultCode = s.faultCode := rfl
@[simp] theorem setSdaDir_faultCmd (d : Dir) (s : State) : (setSdaDir d s).faultCmd = s.faultCmd := rfl
@[simp] theorem setSdaDir_sclO (d : Dir) (s : State) : (setSdaDir d s).sclO = s.sclO := rfl
@[simp] theorem setSdaDir_sclOe (d : Dir) (s : State) : (setSdaDir d s).sclOe = s.sclOe := rfl
@[simp] theorem setSdaDir_sdaO (d : Dir) (s : State) : (setSdaDir d s).sdaO = latchAfterDir s.sdaLatch d s.sdaO := rfl
@[simp] theorem setSdaDir_sdaOe (d : Dir) (s : State) : (setSdaDir d s).sdaOe = d.drives := rfl
@[simp] theorem setSdaDir_sdaLatch (d : Dir) (s : State) : (setSdaDir d s).sdaLatch = s.sdaLatch := rfl
@[simp] theorem setSdaDir_trace (d : Dir) (s : State) : (setSdaDir d s).trace = .sdaDir d :: s.trace := rfl
@[simp] theorem setSdaDir_responses (d : Dir) (s : State) : (setSdaDir d s).responses = s.responses := rfl
@[simp] theorem setSdaDir_env (d : Dir) (s : State) : (setSdaDir d s).env = s.env := rfl

/-! `waitFor` -/

@[simp] theorem waitFor_rxbuf (t : Delay) (s : State) : (waitFor t s).rxbuf = s.rxbuf := rfl
@[simp] theorem waitFor_hasUnread (t : Delay) (s : State) : (waitFor t s).hasUnread = s.hasUnread := rfl
@[simp] theorem waitFor_rdCursor (t : Delay) (s : State) : (waitFor t s).rdCursor = s.rdCursor := rfl
@[simp] theorem waitFor_expLen (t : Delay) (s : State) : (waitFor t s).expLen = s.expLen := rfl
@[simp] theorem waitFor_engState (t : Delay) (s : State) : (waitFor t s).engState = s.engState := rfl
@[simp] theorem waitFor_upc (t : Delay) (s : State) : (waitFor t s).upc = s.upc := rfl
@[simp] theorem waitFor_b (t : Delay) (s : State) : (waitFor t s).b = s.b := rfl
@[simp] theorem waitFor_acc (t : Delay) (s : State) : (waitFor t s).acc = s.acc := rfl
@[simp] theorem waitFor_cmd (t : Delay) (s : State) : (waitFor t s).cmd = s.cmd := rfl
@[simp] theorem waitFor_rspData (t : Delay) (s : State) : (waitFor t s).rspData = s.rspData := rfl
@[simp] theorem waitFor_init (t : Delay) (s : State) : (waitFor t s).init = s.init := rfl
@[simp] theorem waitFor_fault (t : Delay) (s : State) : (waitFor t s).fault = s.fault := rfl
@[simp] theorem waitFor_faultCode (t : Delay) (s : State) : (waitFor t s).faultCode = s.faultCode := rfl
@[simp] theorem waitFor_faultCmd (t : Delay) (s : State) : (waitFor t s).faultCmd = s.faultCmd := rfl
@[simp] theorem waitFor_sclO (t : Delay) (s : State) : (waitFor t s).sclO = s.sclO := rfl
@[simp] theorem waitFor_sclOe (t : Delay) (s : State) : (waitFor t s).sclOe = s.sclOe := rfl
@[simp] theorem waitFor_sdaO (t : Delay) (s : State) : (waitFor t s).sdaO = s.sdaO := rfl
@[simp] theorem waitFor_sdaOe (t : Delay) (s : State) : (waitFor t s).sdaOe = s.sdaOe := rfl
@[simp] theorem waitFor_sdaLatch (t : Delay) (s : State) : (waitFor t s).sdaLatch = s.sdaLatch := rfl
@[simp] theorem waitFor_trace (t : Delay) (s : State) : (waitFor t s).trace = .wait t :: s.trace := rfl
@[simp] theorem waitFor_responses (t : Delay) (s : State) : (waitFor t s).responses = s.responses := rfl
@[simp] theorem waitFor_env (t : Delay) (s : State) : (waitFor t s).env = s.env := rfl

/-! `sampleLine` -/

@[simp] theorem sampleLine_rxbuf (s : State) : (sampleLine s).rxbuf = s.rxbuf := rfl
@[simp] theorem sampleLine_hasUnread (s : State) : (sampleLine s).hasUnread = s.hasUnread := rfl
@[simp] theorem sampleLine_rdCursor (s : State) : (sampleLine s).rdCursor = s.rdCursor := rfl
@[simp] theorem sampleLine_expLen (s : State) : (sampleLine s).expLen = s.expLen := rfl
@[simp] theorem sampleLine_engState (s : State) : (sampleLine s).engState = s.engState := rfl
@[simp] theorem sampleLine_upc (s : State) : (sampleLine s).upc = s.upc := rfl
@[simp] theorem sampleLine_b (s : State) : (sampleLine s).b = sdaIn s := rfl
@[simp] theorem sampleLine_acc (s : State) : (sampleLine s).acc = s.acc := rfl
@[simp] theorem sampleLine_cmd (s : State) : (sampleLine s).cmd = s.cmd := rfl
@[simp] theorem sampleLine_rspData (s : State) : (sampleLine s).rspData = s.rspData := rfl
@[simp] theorem sampleLine_init (s : State) : (sampleLine s).init = s.init := rfl
@[simp] theorem sampleLine_fault (s : State) : (sampleLine s).fault = s.fault := rfl
@[simp] theorem sampleLine_faultCode (s : State) : (sampleLine s).faultCode = s.faultCode := rfl
@[simp] theorem sampleLine_faultCmd (s : State) : (sampleLine s).faultCmd = s.faultCmd := rfl
@[simp] theorem sampleLine_sclO (s : State) : (sampleLine s).sclO = s.sclO := rfl
@[simp] theorem sampleLine_sclOe (s : State) : (sampleLine s).sclOe = s.sclOe := rfl
@[simp] theorem sampleLine_sdaO (s : State) : (sampleLine s).sdaO = s.sdaO := rfl
@[simp] theorem sampleLine_sdaOe (s : State) : (sampleLine s).sdaOe = s.sdaOe := rfl
@[simp] theorem sampleLine_sdaLatch (s : State) : (sampleLine s).sdaLatch = s.sdaLatch := rfl
@[simp] theorem sampleLine_trace (s : State) : (sampleLine s).trace = .sample (sdaIn s) :: s.trace := rfl
@[simp] theorem sampleLine_responses (s : State) : (sampleLine s).responses = s.responses := rfl
@[simp] theorem sampleLine_env (s : State) : (sampleLine s).env = s.env.afterSample := rfl

/-! `openReadTransaction` -/

@[simp] theorem openReadTransaction_rxbuf (n : Nat) (s : State) : (openReadTransaction n s).rxbuf = Memory.zeroed := rfl
@[simp] theorem openReadTransaction_hasUnread (n : Nat) (s : State) : (openReadTransaction n s).hasUnread = true := rfl
@[simp] theorem openReadTransaction_rdCursor (n : Nat) (s : State) : (openReadTransaction n s).rdCursor = 0#8 := rfl
@[simp] theorem openReadTransaction_expLen (n : Nat) (s : State) : (openReadTransaction n s).expLen = lengthReg n := rfl
@[simp] theorem openReadTransaction_engState (n : Nat) (s : State) : (openReadTransaction n s).engState = s.engState := rfl
@[simp] theorem openReadTransaction_upc (n : Nat) (s : State) : (openReadTransaction n s).upc = s.upc := rfl
@[simp] theorem openReadTransaction_b (n : Nat) (s : State) : (openReadTransaction n s).b = s.b := rfl
@[simp] theorem openReadTransaction_acc (n : Nat) (s : State) : (openReadTransaction n s).acc = s.acc := rfl
@[simp] theorem openReadTransaction_cmd (n : Nat) (s : State) : (openReadTransaction n s).cmd = s.cmd := rfl
@[simp] theorem openReadTransaction_rspData (n : Nat) (s : State) : (openReadTransaction n s).rspData = s.rspData := rfl
@[simp] theorem openReadTransaction_init (n : Nat) (s : State) : (openReadTransaction n s).init = s.init := rfl
@[simp] theorem openReadTransaction_fault (n : Nat) (s : State) : (openReadTransaction n s).fault = s.fault := rfl
@[simp] theorem openReadTransaction_faultCode (n : Nat) (s : State) : (openReadTransaction n s).faultCode = s.faultCode := rfl
@[simp] theorem openReadTransaction_faultCmd (n : Nat) (s : State) : (openReadTransaction n s).faultCmd = s.faultCmd := rfl
@[simp] theorem openReadTransaction_sclO (n : Nat) (s : State) : (openReadTransaction n s).sclO = s.sclO := rfl
@[simp] theorem openReadTransaction_sclOe (n : Nat) (s : State) : (openReadTransaction n s).sclOe = s.sclOe := rfl
@[simp] theorem openReadTransaction_sdaO (n : Nat) (s : State) : (openReadTransaction n s).sdaO = s.sdaO := rfl
@[simp] theorem openReadTransaction_sdaOe (n : Nat) (s : State) : (openReadTransaction n s).sdaOe = s.sdaOe := rfl
@[simp] theorem openReadTransaction_sdaLatch (n : Nat) (s : State) : (openReadTransaction n s).sdaLatch = s.sdaLatch := rfl
@[simp] theorem openReadTransaction_trace (n : Nat) (s : State) : (openReadTransaction n s).trace = s.trace := rfl
@[simp] theorem openReadTransaction_responses (n : Nat) (s : State) : (openReadTransaction n s).responses = s.responses := rfl
@[simp] theorem openReadTransaction_env (n : Nat) (s : State) : (openReadTransaction n s).env = s.env := rfl

/-! `readLine` -/

@[simp] theorem readLine_rxbuf (v : Byte) (s : State) : (readLine v s).rxbuf = s.rxbuf := rfl
@[simp] theorem readLine_hasUnread (v : Byte) (s : State) : (readLine v s).hasUnread = s.hasUnread := rfl
@[simp] theorem readLine_rdCursor (v : Byte) (s : State) : (readLine v s).rdCursor = s.rdCursor + 1#8 := rfl
@[simp] theorem readLine_expLen (v : Byte) (s : State) : (readLine v s).expLen = s.expLen := rfl
@[simp] theorem readLine_engState (v : Byte) (s : State) : (readLine v s).engState = .idle := rfl
@[simp] theorem readLine_upc (v : Byte) (s : State) : (readLine v s).upc = 0 := rfl
@[simp] theorem readLine_b (v : Byte) (s : State) : (readLine v s).b = s.b := rfl
@[simp] theorem readLine_acc (v : Byte) (s : State) : (readLine v s).acc = s.acc := rfl
@[simp] theorem readLine_cmd (v : Byte) (s : State) : (readLine v s).cmd = s.cmd := rfl
@[simp] theorem readLine_rspData (v : Byte) (s : State) : (readLine v s).rspData = v := rfl
@[simp] theorem readLine_init (v : Byte) (s : State) : (readLine v s).init = s.init := rfl
@[simp] theorem readLine_fault (v : Byte) (s : State) : (readLine v s).fault = s.fault := rfl
@[simp] theorem readLine_faultCode (v : Byte) (s : State) : (readLine v s).faultCode = s.faultCode := rfl
@[simp] theorem readLine_faultCmd (v : Byte) (s : State) : (readLine v s).faultCmd = s.faultCmd := rfl
@[simp] theorem readLine_sclO (v : Byte) (s : State) : (readLine v s).sclO = s.sclO := rfl
@[simp] theorem readLine_sclOe (v : Byte) (s : State) : (readLine v s).sclOe = s.sclOe := rfl
@[simp] theorem readLine_sdaO (v : Byte) (s : State) : (readLine v s).sdaO = s.sdaO := rfl
@[simp] theorem readLine_sdaOe (v : Byte) (s : State) : (readLine v s).sdaOe = s.sdaOe := rfl
@[simp] theorem readLine_sdaLatch (v : Byte) (s : State) : (readLine v s).sdaLatch = s.sdaLatch := rfl
@[simp] theorem readLine_trace (v : Byte) (s : State) : (readLine v s).trace = s.trace := rfl
@[simp] theorem readLine_responses (v : Byte) (s : State) : (readLine v s).responses = v :: s.responses := rfl
@[simp] theorem readLine_env (v : Byte) (s : State) : (readLine v s).env = s.env := rfl

/-! `applyReset` -/

@[simp] theorem applyReset_rxbuf (s : State) : (applyReset s).rxbuf = [] := rfl
@[simp] theorem applyReset_hasUnread (s : State) : (applyReset s).hasUnread = false := rfl
@[simp] theorem applyReset_rdCursor (s : State) : (applyReset s).rdCursor = 0#8 := rfl
@[simp] theorem applyReset_expLen (s : State) : (applyReset s).expLen = 0#8 := rfl
@[simp] theorem applyReset_engState (s : State) : (applyReset s).engState = .idle := rfl
@[simp] theorem applyReset_upc (s : State) : (applyReset s).upc = 0 := rfl
@[simp] theorem applyReset_b (s : State) : (applyReset s).b = false := rfl
@[simp] theorem applyReset_acc (s : State) : (applyReset s).acc = 0#8 := rfl
@[simp] theorem applyReset_cmd (s : State) : (applyReset s).cmd = 0#32 := rfl
@[simp] theorem applyReset_rspData (s : State) : (applyReset s).rspData = 0#8 := rfl
@[simp] theorem applyReset_init (s : State) : (applyReset s).init = false := rfl
@[simp] theorem applyReset_fault (s : State) : (applyReset s).fault = false := rfl
@[simp] theorem applyReset_faultCode (s : State) : (applyReset s).faultCode = 0#4 := rfl
@[simp] theorem applyReset_faultCmd (s : State) : (applyReset s).faultCmd = 0#32 := rfl
@[simp] theorem applyReset_sclO (s : State) : (applyReset s).sclO = true := rfl
@[simp] theorem applyReset_sclOe (s : State) : (applyReset s).sclOe = false := rfl
@[simp] theorem applyReset_sdaO (s : State) : (applyReset s).sdaO = true := rfl
@[simp] theorem applyReset_sdaOe (s : State) : (applyReset s).sdaOe = false := rfl
@[simp] theorem applyReset_sdaLatch (s : State) : (applyReset s).sdaLatch = s.sdaLatch := rfl
@[simp] theorem applyReset_trace (s : State) : (applyReset s).trace = s.trace := rfl
@[simp] theorem applyReset_responses (s : State) : (applyReset s).responses = s.responses := rfl
@[simp] theorem applyReset_env (s : State) : (applyReset s).env = s.env := rfl

end Sys2Proof.Machine
end

