-- ==== Sys2Proof/Laws/Exec.lean ====
section
/-! SUPPORT. What an `exec` and a `step` can do, once for all commands. -/

namespace Sys2Proof.Machine

/-- Every command is the common frame over its check and its procedure. -/
theorem exec_eq (i : Instr) (s : State) : exec i s = runCommand (checkOf i) (procedureOf i) s := by
  cases i <;> rfl

/-! ### The acceptance checks -/

theorem lengthLegal_iff {n : Nat} : lengthLegal n = true ↔ n ≤ 248 := decide_eq_true_iff

theorem initCheck_eq_none {s : State} : initCheck s = none ↔ s.init = true := by
  unfold initCheck; cases s.init <;> simp

theorem requestCheck_eq_none {n : Nat} {s : State} :
    requestCheck n s = none ↔ s.init = true ∧ n ≤ 248 := by
  rw [← lengthLegal_iff]; unfold requestCheck
  cases s.init <;> cases lengthLegal n <;> simp

theorem readCheck_eq_none {s : State} : readCheck s = none ↔ s.rdCursor < s.expLen := by
  unfold readCheck State.pastEnd; simp

/-! ### Bus actions -/

/-- A Sample takes nothing off the plans of `rst` and of the host. -/
@[simp] theorem afterSample_rst (e : Env) : e.afterSample.rst = e.rst := by
  unfold Env.afterSample; split <;> rfl

@[simp] theorem afterSample_cmd (e : Env) : e.afterSample.cmd = e.cmd := by
  unfold Env.afterSample; split <;> rfl

/-- Everything a bus action can write: the working value `b`, the pin latches, the trace and the
environment's plan. -/
theorem busAction_frame (a : Action) (s : State) :
    busAction a s = { s with
      b := (busAction a s).b, sclO := (busAction a s).sclO, sclOe := (busAction a s).sclOe
      sdaO := (busAction a s).sdaO, sdaOe := (busAction a s).sdaOe
      trace := (busAction a s).trace, env := (busAction a s).env } := by cases a <;> rfl

/-- A bus action appends one event. -/
theorem busAction_trace (a : Action) (s : State) : ∃ e, (busAction a s).trace = e :: s.trace := by
  cases a <;> exact ⟨_, rfl⟩

theorem busAction_env_rst (a : Action) (s : State) : (busAction a s).env.rst = s.env.rst := by
  cases a <;> simp [busAction, setScl, setSda, setSclDir, setSdaDir, waitFor, sampleLine, emit]

theorem busAction_env_cmd (a : Action) (s : State) : (busAction a s).env.cmd = s.env.cmd := by
  cases a <;> simp [busAction, setScl, setSda, setSclDir, setSdaDir, waitFor, sampleLine, emit]

/-- Only a Sample writes `b` and the environment's plan. -/
theorem busAction_no_sample {a : Action} (s : State) (h : a ≠ .sample) :
    (busAction a s).b = s.b ∧ (busAction a s).env = s.env := by
  cases a <;> first | exact ⟨rfl, rfl⟩ | exact absurd rfl h

/-- Only a switch of the clock line's direction writes `SCL_OE`. -/
theorem busAction_sclOe {a : Action} (s : State) (h : ∀ d, a ≠ .setSclDir d) :
    (busAction a s).sclOe = s.sclOe := by
  cases a <;> first | rfl | exact absurd rfl (h _)

/-- Everything the part behind a bus action can write: the sequencer position and `acc`. -/
theorem afterAction_frame (k : After) (s : State) :
    afterAction k s = { s with upc := (afterAction k s).upc, acc := (afterAction k s).acc } := by
  cases k <;> simp only [afterAction] <;> first | rfl | (split <;> rfl)

/-- Only ReadByte's shift writes `acc`. -/
theorem afterAction_acc {k : After} (s : State) (h : ∀ j, k ≠ .shift j) :
    (afterAction k s).acc = s.acc := by
  cases k <;> simp only [afterAction] <;>
    first | rfl | (split <;> rfl) | exact absurd rfl (h _)

/-! ### Acceptance, running, stopped -/

/-- An idle block accepts: the check's fault, or the start. -/
theorem exec_idle {i : Instr} {s : State} (h : s.engState = .idle) :
    exec i s = .next (match checkOf i s with
      | some c => raiseFault c s
      | none => startCommand s) := by
  rw [exec_eq]; unfold runCommand; rw [h]; cases checkOf i s <;> rfl

theorem exec_idle_start {i : Instr} {s : State} (h : s.engState = .idle) (hc : checkOf i s = none) :
    exec i s = .next (startCommand s) := by rw [exec_idle h, hc]

theorem exec_idle_fault {i : Instr} {s : State} {c : FaultCause} (h : s.engState = .idle)
    (hc : checkOf i s = some c) : exec i s = .next (raiseFault c s) := by rw [exec_idle h, hc]

/-- A busy block does the micro-step at `upc`. -/
theorem exec_busy {i : Instr} {s : State} {m : MicroStep} (h : s.engState = .busy)
    (hm : procedureOf i s.upc = some m) : exec i s = runMicroStep m s := by
  rw [exec_eq]; unfold runCommand; rw [h]; simp [hm]

theorem exec_busy_none {i : Instr} {s : State} (h : s.engState = .busy)
    (hm : procedureOf i s.upc = none) : exec i s = .fault .noMicroStep := by
  rw [exec_eq]; unfold runCommand; rw [h]; simp [hm]

/-- A faulted block does nothing. -/
theorem exec_faulted {i : Instr} {s : State} (h : s.engState = .faulted) : exec i s = .next s := by
  rw [exec_eq]; unfold runCommand; rw [h]

/-- Everything an `exec` that answers a next state can have done. -/
theorem exec_next_cases {i : Instr} {s t : State} (h : exec i s = .next t) :
    (s.engState = .idle ∧ ∃ c, checkOf i s = some c ∧ t = raiseFault c s) ∨
    (s.engState = .idle ∧ checkOf i s = none ∧ t = startCommand s) ∨
    (s.engState = .busy ∧ ∃ m, procedureOf i s.upc = some m ∧ runMicroStep m s = .next t) ∨
    (s.engState = .faulted ∧ t = s) := by
  cases hs : s.engState with
  | idle =>
    rw [exec_idle hs] at h
    cases hc : checkOf i s <;> simp [hc] at h <;> simp [h]
  | busy =>
    cases hm : procedureOf i s.upc with
    | none => rw [exec_busy_none hs hm] at h; cases h
    | some m => rw [exec_busy hs hm] at h; simp [h]
  | faulted => rw [exec_faulted hs] at h; cases h; simp

/-- Everything a micro-step that answers a next state can have done. -/
theorem runMicroStep_next_cases {m : MicroStep} {s t : State} (h : runMicroStep m s = .next t) :
    (∃ a k, m = .bus a k ∧ t = afterAction k (busAction a s)) ∨
    (∃ n, m = .openRead n ∧ t = advance (openReadTransaction n s)) ∨
    (∃ i, m = .storeByte i ∧ i < Config.cap ∧
      t = advance { s with rxbuf := s.rxbuf.write i s.acc }) ∨
    (m = .setInit ∧ t = advance { s with init := true }) ∨
    (∃ v, m = .respond v ∧ t = respond v s) ∨
    (m = .available ∧ t = availableLine s) ∨
    (m = .read ∧ s.rdCursor.toNat < Config.cap ∧ t = readLine (s.rxbuf.read s.rdCursor.toNat) s) := by
  cases m with
  | bus a k => simp [runMicroStep] at h; simp [h]
  | openRead n => simp [runMicroStep] at h; simp [h]
  | storeByte i =>
    simp only [runMicroStep] at h
    split at h
    · next u hu =>
      obtain ⟨hi, rfl⟩ := memWrite_eq_some.1 hu
      cases h
      exact .inr (.inr (.inl ⟨i, rfl, hi, rfl⟩))
    · cases h
  | setInit => simp [runMicroStep] at h; simp [h]
  | respond v => simp [runMicroStep] at h; simp [h]
  | available => simp [runMicroStep] at h; simp [h]
  | read =>
    simp only [runMicroStep] at h
    split at h
    · next v hv =>
      obtain ⟨hi, rfl⟩ := memRead_eq_some.1 hv
      cases h
      simp [hi]
    · cases h

/-- Everything a step that answers a next state can have done. -/
theorem step_next_cases {s t : State} (h : step s = .next t) :
    (rstNow s = true ∧ t = applyReset (rstNext s)) ∨
    (rstNow s = false ∧ s.engState = .idle ∧ offered s = none ∧ t = idleStep (rstNext s)) ∨
    (rstNow s = false ∧ s.engState = .idle ∧ ∃ w e, offered s = some w ∧ decode w = .error e ∧
      t = raiseFault .illegalCommand (latchCommand w (rstNext s))) ∨
    (rstNow s = false ∧ s.engState = .idle ∧ ∃ w i, offered s = some w ∧ decode w = .ok i ∧
      exec i (latchCommand w (rstNext s)) = .next t) ∨
    (rstNow s = false ∧ s.engState = .busy ∧ ∃ i, decode s.cmd = .ok i ∧
      exec i (rstNext s) = .next t) ∨
    (rstNow s = false ∧ s.engState = .faulted ∧ t = rstNext s) := by
  unfold step at h
  split at h
  · next hr => cases h; exact .inl ⟨hr, rfl⟩
  · next hr =>
    have hr : rstNow s = false := by simpa using hr
    unfold engineStep at h
    split at h
    · next hs =>
      have hs : s.engState = .idle := hs
      split at h
      · next w hw =>
        have hw : offered s = some w := hw
        unfold accept at h
        split at h
        · next i hd => exact .inr (.inr (.inr (.inl ⟨hr, hs, w, i, hw, hd, h⟩)))
        · next e hd => cases h; exact .inr (.inr (.inl ⟨hr, hs, w, e, hw, hd, rfl⟩))
      · next hw => cases h; exact .inr (.inl ⟨hr, hs, hw, rfl⟩)
    · next hs =>
      have hs : s.engState = .busy := hs
      unfold runLatched at h
      split at h
      · next i hd => exact .inr (.inr (.inr (.inr (.inl ⟨hr, hs, i, hd, h⟩))))
      · cases h
    · next hs =>
      have hs : s.engState = .faulted := hs
      cases h; exact .inr (.inr (.inr (.inr (.inr ⟨hr, hs, rfl⟩))))

/-! ### Runs -/

@[simp] theorem execRun_zero (i : Instr) (s : State) : execRun i 0 s = .next s := rfl

theorem execRun_succ {i : Instr} {k : Nat} {s t : State} (h : exec i s = .next t) :
    execRun i (k + 1) s = execRun i k t := by simp [execRun, h]

/-- A run in two parts. -/
theorem execRun_add {i : Instr} {j k : Nat} {s t : State} (h : execRun i j s = .next t) :
    execRun i (j + k) s = execRun i k t := by
  induction j generalizing s with
  | zero => simp at h; simp [h]
  | succ j ih =>
    rw [Nat.succ_add]
    simp only [execRun] at h ⊢
    cases he : exec i s with
    | next u => rw [he] at h; exact ih h
    | fault r => rw [he] at h; cases h
    | refused r => rw [he] at h; cases h

@[simp] theorem runSteps_nil (s : State) : runSteps [] s = .next s := rfl

theorem runSteps_cons {m : MicroStep} {ms : List MicroStep} {s t : State}
    (h : runMicroStep m s = .next t) : runSteps (m :: ms) s = runSteps ms t := by
  simp [runSteps, h]

/-- Micro-steps in two parts. -/
theorem runSteps_append {ms ns : List MicroStep} {s t : State} (h : runSteps ms s = .next t) :
    runSteps (ms ++ ns) s = runSteps ns t := by
  induction ms generalizing s with
  | nil => simp at h; simp [h]
  | cons m ms ih =>
    simp only [runSteps, List.cons_append] at h ⊢
    cases he : runMicroStep m s with
    | next u => rw [he] at h; exact ih h
    | fault r => rw [he] at h; cases h
    | refused r => rw [he] at h; cases h

/-- The micro-steps after which the next position follows and the command goes on. -/
def goesOn : MicroStep → Bool
  | .bus _ .nothing => true
  | .bus _ (.shift _) => true
  | .bus _ .againUnlessAck => false
  | .openRead _ => true
  | .storeByte _ => true
  | .setInit => true
  | .respond _ => false
  | .available => false
  | .read => false

@[simp] theorem busAction_engState (a : Action) (s : State) :
    (busAction a s).engState = s.engState := by cases a <;> rfl

@[simp] theorem busAction_upc (a : Action) (s : State) : (busAction a s).upc = s.upc := by
  cases a <;> rfl

theorem runMicroStep_goesOn {m : MicroStep} {s t : State} (hm : goesOn m = true)
    (h : runMicroStep m s = .next t) : t.engState = s.engState ∧ t.upc = s.upc + 1 := by
  rcases runMicroStep_next_cases h with ⟨a, k, rfl, rfl⟩ | ⟨n, rfl, rfl⟩ | ⟨i, rfl, -, rfl⟩ |
    ⟨rfl, rfl⟩ | ⟨v, rfl, rfl⟩ | ⟨rfl, rfl⟩ | ⟨rfl, -, rfl⟩
  · cases k <;> simp [goesOn, afterAction] at hm ⊢
  · simp
  · simp
  · simp
  · simp [goesOn] at hm
  · simp [goesOn] at hm
  · simp [goesOn] at hm

/-- A busy command runs a stretch of its procedure that has no loop end and no response exactly as
the list of its micro-steps. -/
theorem execRun_eq_runSteps {i : Instr} {ms : List MicroStep} {s t : State}
    (hb : s.engState = .busy) (hp : ∀ j, j < ms.length → procedureOf i (s.upc + j) = ms[j]?)
    (hg : ∀ m ∈ ms, goesOn m = true) (h : runSteps ms s = .next t) :
    execRun i ms.length s = .next t ∧ t.engState = .busy ∧ t.upc = s.upc + ms.length := by
  induction ms generalizing s with
  | nil => simp at h; subst h; simp [hb]
  | cons m ms ih =>
    simp only [runSteps] at h
    cases he : runMicroStep m s with
    | fault r => rw [he] at h; cases h
    | refused r => rw [he] at h; cases h
    | next u =>
      rw [he] at h
      obtain ⟨h1, h2⟩ := runMicroStep_goesOn (hg m (by simp)) he
      have hx : exec i s = .next u := by
        rw [exec_busy hb (m := m) (by simpa using hp 0 (by simp)), he]
      have := ih (h1.trans hb) (fun j hj => by
          have := hp (j + 1) (by simpa using hj)
          rw [h2, Nat.add_assoc, Nat.add_comm 1 j, this]; rfl)
        (fun m' hm' => hg m' (by simp [hm'])) h
      refine ⟨?_, this.2.1, ?_⟩
      · simpa [execRun_succ hx] using this.1
      · rw [this.2.2, h2, List.length_cons]; omega

end Sys2Proof.Machine
end

