-- ==== Sys2Proof/Laws/PerInstr.lean ====
section
/-! SUPPORT. Per command: its encoding lies in its row of spec/opcode_table.json and carries its
operands (30_encoding.md R80, R84, R88). -/

namespace Sys2Proof.Laws.EncodeRow

open Sys2Proof

/-- The row's mask (R84): the bits its encoding fixes. -/
def mask : Instr → Word
  | .begin => 0xFFFFFFFF#32
  | .beginTx _ => 0xFFFF00FF#32
  | .write _ => 0xFFFF00FF#32
  | .endTx => 0xFFFFFFFF#32
  | .requestFrom _ _ => 0xFF0000FF#32
  | .available => 0xFFFFFFFF#32
  | .read => 0xFFFFFFFF#32

/-- The row's match (R84): the values of the fixed bits. -/
def pattern : Instr → Word
  | .begin => 0x00000001#32
  | .beginTx _ => 0x00000002#32
  | .write _ => 0x00000003#32
  | .endTx => 0x00000004#32
  | .requestFrom _ _ => 0x00000005#32
  | .available => 0x00000006#32
  | .read => 0x00000007#32

/-- The operand of field A, 0 where the command has none (R81, R86). -/
def operandA : Instr → Byte
  | .begin => 0#8
  | .beginTx addr => addr
  | .write data => data
  | .endTx => 0#8
  | .requestFrom addr _ => addr
  | .available => 0#8
  | .read => 0#8

/-- The operand of field B, 0 where the command has none (R82, R86). -/
def operandB : Instr → Byte
  | .begin => 0#8
  | .beginTx _ => 0#8
  | .write _ => 0#8
  | .endTx => 0#8
  | .requestFrom _ len => BitVec.ofNat 8 len
  | .available => 0#8
  | .read => 0#8

/-- The encoding matches the command's row, and its fields A and B are the operands. -/
def Statement (i : Instr) : Prop :=
  encode i &&& mask i = pattern i ∧ aField (encode i) = operandA i ∧ bField (encode i) = operandB i

theorem begin : Statement .begin := by unfold Statement; decide

theorem beginTx (addr : Byte) : Statement (.beginTx addr) := by
  refine ⟨?_, aField_cmd32 .., bField_cmd32 ..⟩
  revert addr; decide

theorem write (data : Byte) : Statement (.write data) := by
  refine ⟨?_, aField_cmd32 .., bField_cmd32 ..⟩
  revert data; decide

theorem endTx : Statement .endTx := by unfold Statement; decide

theorem requestFrom (addr : Byte) (len : Nat) : Statement (.requestFrom addr len) := by
  refine ⟨?_, aField_cmd32 .., bField_cmd32 ..⟩
  show cmd32 (BitVec.ofNat 8 len) addr 5#4 &&& 0xFF0000FF#32 = 0x00000005#32
  apply BitVec.eq_of_getLsbD_eq
  intro i hi
  rw [BitVec.getLsbD_and, getLsbD_cmd32]
  interval_cases i <;> simp

theorem available : Statement .available := by unfold Statement; decide

theorem read : Statement .read := by unfold Statement; decide

end Sys2Proof.Laws.EncodeRow
end

