-- ==== Sys2Proof/Laws/Procedures.lean ====
section
/-! SUPPORT. Where the micro-steps of the commands' procedures stand: lengths, and the three parts
of REQUEST_FROM's procedure. -/

namespace Sys2Proof.Machine

@[simp] theorem length_bitCycle (l : Level) : (bitCycle l).length = 5 := rfl

@[simp] theorem length_writeBits (v : Byte) (n : Nat) : (writeBits v n).length = 5 * n := by
  induction n with
  | zero => rfl
  | succ n ih => rw [writeBits, List.length_append, ih, length_bitCycle]; omega

@[simp] theorem length_readBit (k : After) : (readBit k).length = 8 := rfl

@[simp] theorem length_readByte : readByte.length = 64 := rfl

@[simp] theorem length_start : start.length = 7 := rfl

@[simp] theorem length_stop : stop.length = 7 := rfl

@[simp] theorem length_waitAck : waitAck.length = 8 := rfl

@[simp] theorem length_addressPhase (a : Byte) (dir : Level) : (addressPhase a dir).length = 48 := by
  simp [addressPhase, Config.addrBits]

@[simp] theorem length_masterAckBit (i n : Nat) : (masterAckBit i n).length = 5 := by
  unfold masterAckBit; split <;> simp

@[simp] theorem length_beginProcedure : beginProcedure.length = 48 := rfl

@[simp] theorem length_beginTxProcedure (a : Byte) : (beginTxProcedure a).length = 56 := by
  simp [beginTxProcedure]

@[simp] theorem length_writeProcedure (d : Byte) : (writeProcedure d).length = 49 := by
  simp [writeProcedure, Config.dataBits]

@[simp] theorem length_endTxProcedure : endTxProcedure.length = 8 := rfl

@[simp] theorem length_requestHead (a : Byte) (n : Nat) :
    (requestHead a n).length = requestHeadSteps := by
  simp [requestHead, requestHeadSteps]

@[simp] theorem length_requestBody (i n : Nat) : (requestBody i n).length = requestBodySteps := by
  simp [requestBody, requestBodySteps]

@[simp] theorem length_requestTail : requestTail.length = 8 := rfl

/-- REQUEST_FROM before its byte loop. -/
theorem requestProcedure_head (a : Byte) (n p : Nat) (h : p < 56) :
    requestProcedure a n p = (requestHead a n)[p]? := by
  simp [requestProcedure, requestHeadSteps, h]

/-- REQUEST_FROM in pass `i` of its byte loop. -/
theorem requestProcedure_body (a : Byte) (n i j : Nat) (hi : i < n) (hj : j < 70) :
    requestProcedure a n (56 + 70 * i + j) = (requestBody i n)[j]? := by
  have h1 : ¬ 56 + 70 * i + j < 56 := by omega
  have h2 : 56 + 70 * i + j - 56 < 70 * n := by omega
  have h3 : (56 + 70 * i + j - 56) / 70 = i := by omega
  have h4 : (56 + 70 * i + j - 56) % 70 = j := by omega
  simp [requestProcedure, requestHeadSteps, requestBodySteps, h1, h2, h3, h4]

/-- REQUEST_FROM behind its byte loop. -/
theorem requestProcedure_tail (a : Byte) (n j : Nat) :
    requestProcedure a n (56 + 70 * n + j) = requestTail[j]? := by
  have h1 : ¬ 56 + 70 * n + j < 56 := by omega
  have h2 : ¬ 56 + 70 * n + j - 56 < 70 * n := by omega
  have h3 : 56 + 70 * n + j - 56 - 70 * n = j := by omega
  simp [requestProcedure, requestHeadSteps, requestBodySteps, h1, h2, h3]

/-- Every position of REQUEST_FROM's procedure lies in one of its three parts. -/
theorem requestProcedure_position (n p : Nat) :
    p < 56 ∨ (∃ i j, i < n ∧ j < 70 ∧ p = 56 + 70 * i + j) ∨ (∃ j, p = 56 + 70 * n + j) := by
  by_cases h1 : p < 56
  · exact .inl h1
  · by_cases h2 : p - 56 < 70 * n
    · exact .inr (.inl ⟨(p - 56) / 70, (p - 56) % 70, by omega, by omega, by omega⟩)
    · exact .inr (.inr ⟨p - 56 - 70 * n, by omega⟩)

/-- The store of pass `i` stands behind its eight ReadBits. -/
theorem requestBody_store (i n : Nat) : (requestBody i n)[64]? = some (.storeByte i) := by
  unfold requestBody
  rw [List.append_assoc, List.getElem?_append_right (by simp)]
  rfl

end Sys2Proof.Machine
end

