-- ==== Sys2Proof/Tests/Slice0.lean ====
section
/-! SUPPORT. The model's own tests, their expected values taken from spec/95_test_vectors.md (V and
S numbers) or worked out by hand from the rules named, and a witness for the hypotheses of every
statement that has some. -/

namespace Sys2Proof.Tests

open Sys2Proof Sys2Proof.Machine

/-! ### Small states -/

/-- The state of an answer, the reset state where there is none. -/
def after : Host.Outcome State Fault Refusal → State
  | .next t => t
  | .fault _ => State.reset
  | .refused _ => State.reset

/-- S1 of 95_test_vectors.md section 0: after BEGIN. -/
def s1 : State := { State.reset with init := true, sclOe := true, sdaOe := true }

/-- `s` with the host offering `w` and the environment giving `sda`. -/
def offering (w : Word) (sda : List Level) (s : State) : State :=
  { s with env := { rst := [], cmd := [some w], sda := sda, draws := 0 } }

/-- `s` BUSY with the command word `w` at position `u`. -/
def running (w : Word) (u : Nat) (s : State) : State :=
  { s with engState := .busy, cmd := w, upc := u }

/-- `s` with the environment giving `sda`. -/
def sampling (sda : List Level) (s : State) : State :=
  { s with env := { s.env with sda := sda } }

/-- `s` with `rst` high in the coming step. -/
def resetting (s : State) : State := { s with env := { s.env with rst := [true] } }

/-- The start of V18: three bytes unread. -/
def unread : State :=
  { s1 with rxbuf := [(0, 0xDE#8), (1, 0xAD#8), (2, 0x01#8)], expLen := 3#8, hasUnread := true }

/-- V19: the three bytes read, the flag still set. -/
def drained : State := { unread with rdCursor := 3#8 }

/-- A faulted block (V42). -/
def faulted : State :=
  { State.reset with engState := .faulted, fault := true, faultCode := 2#4, faultCmd := 0x00005002#32
                     cmd := 0x00005002#32 }

/-- BEGIN_TX 0x50 inside its WaitAck's ReadBit, the data line released (42_framing.md R144). -/
def insideAck : State :=
  { running 0x00005002#32 50 s1 with sdaOe := false, sclO := true }

/-! ### WellFormed refuses an ill-formed operand (30_encoding.md R89) -/

theorem test_wellFormed_refuses_length : ¬ (Instr.requestFrom 0x50 256).WellFormed := by decide

theorem test_wellFormed_longest_length : (Instr.requestFrom 0x50 255).WellFormed := by decide

/-! ### Decoding and encoding, words written out from 30_encoding.md R84 (V20 to V37) -/

theorem test_decode_begin : decode 0b00000000000000000000000000000001#32 = .ok .begin := by decide

theorem test_decode_beginTx :
    decode 0b00000000000000001101000000000010#32 = .ok (.beginTx 0xD0) := by decide

theorem test_decode_write :
    decode 0b00000000000000000001000000000011#32 = .ok (.write 0x10) := by decide

theorem test_decode_endTx : decode 0b00000000000000000000000000000100#32 = .ok .endTx := by decide

theorem test_decode_requestFrom :
    decode 0b00000000111110000101000000000101#32 = .ok (.requestFrom 0x50 248) := by decide

theorem test_decode_available :
    decode 0b00000000000000000000000000000110#32 = .ok .available := by decide

theorem test_decode_read : decode 0b00000000000000000000000000000111#32 = .ok .read := by decide

theorem test_decode_illegal_opcodes :
    decode 0x00000000#32 = .error .opcode ∧ decode 0x00000008#32 = .error .opcode
    ∧ decode 0x0000000F#32 = .error .opcode := by decide

theorem test_decode_illegal_fields :
    decode 0x00000101#32 = .error .unusedOperand ∧ decode 0x00010003#32 = .error .unusedOperand
    ∧ decode 0x00000015#32 = .error .reservedLow ∧ decode 0x01000001#32 = .error .reservedHigh := by
  decide

theorem test_decodeTableWord_opcode_byte_only : decodeTableWord 8 0x05 = some (.requestFrom 0 0) := by
  decide

theorem test_encode_requestFrom : encode (.requestFrom 0x50 3) = 0x00035005#32 := by decide

/-! ### One step each -/

/-- V10: BEGIN's first bus action is `SCLDIR=OUT`. -/
theorem test_begin_first_action :
    (after (step (running 0x00000001#32 0 State.reset))).trace = [.sclDir .out] := by decide

/-- R162: BEGIN is accepted while `INIT = 0`. -/
theorem test_begin_accepted :
    (after (step (State.reset.withFetchWord 32 0x00000001))).status = 0x01#8 := by decide

/-- V42: BEGIN_TX before BEGIN faults with `STATUS = 0x28`. -/
theorem test_beginTx_not_initialized :
    (after (step (State.reset.withFetchWord 32 0x00005002))).status = 0x28#8 := by decide

/-- V9b, V7: the first address bit of 0x50 is its bit 6, a 1. -/
theorem test_beginTx_first_address_bit :
    (after (step (running 0x00005002#32 8 s1))).trace = [.sda true] := by decide

/-- V3: the first bit of `WRITE 0xAB` is its bit 7, a 1. -/
theorem test_write_first_bit : (after (step (running 0x0000AB03#32 1 s1))).trace = [.sda true] := by
  decide

/-- R144: a sample of 1 sends WaitAck back to its ReadBit's first action. -/
theorem test_write_unacknowledged :
    (after (step { running 0x0000AB03#32 47 s1 with b := true })).upc = 40 := by decide

/-- V46: END_TX is accepted once `INIT = 1`. -/
theorem test_endTx_accepted :
    (after (step (s1.withFetchWord 32 0x00000004))).status = 0x03#8 := by decide

/-- R142: the stop sequence begins with the clock low. -/
theorem test_endTx_first_action :
    (after (step (running 0x00000004#32 0 s1))).trace = [.scl false] := by decide

/-- V43: a length of 249 faults with `STATUS = 0x3A`. -/
theorem test_requestFrom_too_large :
    (after (step (s1.withFetchWord 32 0x00F95005))).status = 0x3A#8 := by decide

/-- V16: the first step of REQUEST_FROM shows `STATUS = 0x07`. -/
theorem test_requestFrom_opens :
    (after (step (running 0x00035005#32 0 s1))).status = 0x07#8 := by decide

/-- V18: AVAILABLE with unread bytes responds 0x01. -/
theorem test_available_unread :
    (after (step (running 0x00000006#32 0 unread))).rspData = 0x01#8 := by decide

/-- V19: AVAILABLE after the last READ gives `STATUS = 0x02`. -/
theorem test_available_drained :
    (after (step (running 0x00000006#32 0 drained))).status = 0x02#8 := by decide

/-- V18: READ returns 0xDE. -/
theorem test_read_first_byte :
    (after (step (running 0x00000007#32 0 unread))).rspData = 0xDE#8 := by decide

/-- V44: READ after reset faults with `STATUS = 0x48`. -/
theorem test_read_past_end :
    (after (step (State.reset.withFetchWord 32 0x00000007))).status = 0x48#8 := by decide

/-- V41: the faulted word is latched in FAULT_CMD. -/
theorem test_illegal_records_word :
    (after (step (State.reset.withFetchWord 32 0x00000101))).faultCmd = 0x00000101#32 := by decide

/-- V4, R104: under CLEAR a ReadBit from `SDA_O = 1` ends with `SDA_O = 0`. -/
theorem test_setSdaDir_clear :
    (setSdaDir .input { s1 with sdaLatch := .clear }).sdaO = false := by decide

/-! ### Witnesses: the invariant in states that are not the reset state -/

theorem witness_inv_s1 : s1.Inv where
  bufferForm := rfl
  cursorInRange := by decide
  lengthInRange := by decide
  flagClear := fun _ => rfl
  restZero := fun _ _ => rfl
  faultState := by decide
  noFault := fun _ => ⟨rfl, rfl⟩
  faultCodes := by decide
  clockDriven := fun _ => rfl
  dataDriven := fun _ => rfl
  released := fun h => by cases h
  running := fun h => by cases h

theorem witness_inv_unread : unread.Inv where
  bufferForm := rfl
  cursorInRange := by decide
  lengthInRange := by decide
  flagClear := by decide
  restZero := fun i hi => by
    have h3 : 3 ≤ i := hi
    have h0 : i ≠ 0 := by omega
    have h1 : i ≠ 1 := by omega
    have h2 : i ≠ 2 := by omega
    simp [unread, Memory.read, h0, h1, h2]
  faultState := by decide
  noFault := fun _ => ⟨rfl, rfl⟩
  faultCodes := by decide
  clockDriven := fun _ => rfl
  dataDriven := fun _ => rfl
  released := fun h => by cases h
  running := fun h => by cases h

theorem witness_inv_faulted : faulted.Inv where
  bufferForm := rfl
  cursorInRange := by decide
  lengthInRange := by decide
  flagClear := fun _ => rfl
  restZero := fun _ _ => rfl
  faultState := by decide
  noFault := fun h => by cases h
  faultCodes := by decide
  clockDriven := fun h => by cases h
  dataDriven := fun h => by cases h
  released := fun _ => .inr ⟨rfl, rfl⟩
  running := fun h => by cases h

/-- Inside a ReadBit: BUSY, the data line released. -/
theorem witness_inv_insideAck : insideAck.Inv where
  bufferForm := rfl
  cursorInRange := by decide
  lengthInRange := by decide
  flagClear := fun _ => rfl
  restZero := fun _ _ => rfl
  faultState := by decide
  noFault := fun _ => ⟨rfl, rfl⟩
  faultCodes := by decide
  clockDriven := fun _ => rfl
  dataDriven := fun _ => by decide
  released := fun h => by cases h
  running := fun _ => ⟨.beginTx 0x50, by decide, by decide, rfl⟩

/-- EveryStepKeepsTheInvariant, NoStepStops, StatusWordFields. -/
theorem witness_invariant_step : insideAck.Inv ∧ step insideAck = .next (after (step insideAck)) :=
  ⟨witness_inv_insideAck, rfl⟩

/-! ### Witnesses: encoding -/

theorem witness_DecodeInvertsEncode :
    (Instr.requestFrom 0x50 255).WellFormed ∧ decode 0x00FF5005#32 = .ok (.requestFrom 0x50 255) := by
  decide

theorem witness_ReservedEncodingsAreIllegal :
    (0x01000001#32).extractLsb' 24 8 ≠ 0#8 ∧ (0x00000015#32).extractLsb' 4 4 ≠ 0#4
    ∧ (0x00000000#32).extractLsb' 0 4 = 0#4 ∧ 8#4 ≤ (0x00000008#32).extractLsb' 0 4
    ∧ 8#4 ≤ (0x0000000F#32).extractLsb' 0 4
    ∧ ((0x00000101#32).extractLsb' 0 4 = 1#4 ∧ (0x00000101#32).extractLsb' 8 8 ≠ 0#8)
    ∧ ((0x00010004#32).extractLsb' 0 4 = 4#4 ∧ (0x00010004#32).extractLsb' 16 8 ≠ 0#8)
    ∧ ((0x00010006#32).extractLsb' 0 4 = 6#4 ∧ (0x00010006#32).extractLsb' 16 8 ≠ 0#8)
    ∧ ((0x00000107#32).extractLsb' 0 4 = 7#4 ∧ (0x00000107#32).extractLsb' 8 8 ≠ 0#8)
    ∧ ((0x00010002#32).extractLsb' 0 4 = 2#4 ∧ (0x00010002#32).extractLsb' 16 8 ≠ 0#8)
    ∧ ((0x00010003#32).extractLsb' 0 4 = 3#4 ∧ (0x00010003#32).extractLsb' 16 8 ≠ 0#8) := by decide

/-! ### Witnesses: the step -/

theorem witness_ResetWinsInEveryState :
    rstNow (resetting insideAck) = true ∧ rstNow (resetting faulted) = true := by decide

theorem witness_StepRunsTheDecodedCommand :
    (rstNow (offering 0x00000001#32 [] s1) = false ∧ (offering 0x00000001#32 [] s1).engState = .idle
      ∧ offered (offering 0x00000001#32 [] s1) = some 0x00000001#32
      ∧ decode 0x00000001#32 = .ok .begin)
    ∧ (rstNow insideAck = false ∧ insideAck.engState = .busy
      ∧ decode insideAck.cmd = .ok (.beginTx 0x50)) := by decide

/-- A BUSY block and a FAULTED one, each with an offer on the port. -/
theorem witness_OffersWaitWhileNotReady :
    (rstNow (offering 0x00000001#32 [] insideAck) = false
      ∧ (offering 0x00000001#32 [] insideAck).cmdReady = false
      ∧ step (offering 0x00000001#32 [] insideAck)
          = .next (after (step (offering 0x00000001#32 [] insideAck))))
    ∧ (rstNow (offering 0x00000001#32 [] faulted) = false
      ∧ (offering 0x00000001#32 [] faulted).cmdReady = false
      ∧ step (offering 0x00000001#32 [] faulted)
          = .next (after (step (offering 0x00000001#32 [] faulted)))) :=
  ⟨⟨rfl, rfl, rfl⟩, rfl, rfl, rfl⟩

theorem witness_IdleBlockWaits :
    rstNow s1 = false ∧ s1.engState = .idle ∧ offered s1 = none := by decide

/-- One offer for each outcome of the checks: V40 illegal, V42b not initialised before too large,
V43 too large, V44 past the end, V46 accepted, and READ of an unread byte accepted. -/
theorem witness_AcceptanceChecksInOrder :
    (rstNow (offering 0x00000000#32 [] State.reset) = false
      ∧ offered (offering 0x00000000#32 [] State.reset) = some 0x00000000#32
      ∧ decode 0x00000000#32 = .error .opcode)
    ∧ (offered (offering 0x00F95005#32 [] State.reset) = some 0x00F95005#32
      ∧ decode 0x00F95005#32 = .ok (.requestFrom 0x50 249)
      ∧ isBusCommand (.requestFrom 0x50 249) = true ∧ State.reset.init = false)
    ∧ (lengthOver (.requestFrom 0x50 249) = true ∧ lengthOver (.requestFrom 0x50 248) = false
      ∧ s1.init = true ∧ s1.engState = .idle)
    ∧ (decode 0x00000007#32 = .ok .read ∧ State.reset.expLen ≤ State.reset.rdCursor
      ∧ drained.expLen ≤ drained.rdCursor ∧ ¬ unread.expLen ≤ unread.rdCursor)
    ∧ (decode 0x00000004#32 = .ok .endTx ∧ State.reset.engState = .idle) := by decide

theorem witness_FaultedCommandHasNoEffect :
    rstNow (offering 0x00005002#32 [] State.reset) = false
    ∧ (offering 0x00005002#32 [] State.reset).engState = .idle
    ∧ offered (offering 0x00005002#32 [] State.reset) = some 0x00005002#32
    ∧ step (offering 0x00005002#32 [] State.reset)
        = .next (after (step (offering 0x00005002#32 [] State.reset)))
    ∧ (after (step (offering 0x00005002#32 [] State.reset))).engState = .faulted :=
  ⟨rfl, rfl, rfl, rfl, by decide⟩

theorem witness_FaultedBlockDoesNotChange : rstNow faulted = false ∧ faulted.engState = .faulted := by
  decide

/-! ### Witnesses: whole-machine rules -/

/-- REQUEST_FROM sets the flag; AVAILABLE and a reset clear it. -/
theorem witness_UnreadFlagWriters :
    (step (running 0x00035005#32 0 s1) = .next (after (step (running 0x00035005#32 0 s1)))
      ∧ s1.hasUnread = false ∧ (after (step (running 0x00035005#32 0 s1))).hasUnread = true)
    ∧ (step (running 0x00000006#32 0 drained) = .next (after (step (running 0x00000006#32 0 drained)))
      ∧ drained.hasUnread = true
      ∧ (after (step (running 0x00000006#32 0 drained))).hasUnread = false)
    ∧ (step (resetting unread) = .next (after (step (resetting unread)))
      ∧ unread.hasUnread = true ∧ (after (step (resetting unread))).hasUnread = false) :=
  ⟨⟨rfl, rfl, by decide⟩, ⟨rfl, rfl, by decide⟩, rfl, rfl, by decide⟩

/-- BEGIN sets INIT at its position 46; a reset clears it. -/
theorem witness_InitFlagWriters :
    (step (running 0x00000001#32 46 State.reset)
        = .next (after (step (running 0x00000001#32 46 State.reset)))
      ∧ State.reset.init = false
      ∧ (after (step (running 0x00000001#32 46 State.reset))).init = true)
    ∧ (step (resetting s1) = .next (after (step (resetting s1)))
      ∧ s1.init = true ∧ (after (step (resetting s1))).init = false) :=
  ⟨⟨rfl, rfl, by decide⟩, rfl, rfl, by decide⟩

/-- The store of byte 0 stands at position 56 + 64. -/
theorem witness_BufferWriters :
    step { running 0x00035005#32 120 s1 with acc := 0xDE#8 }
        = .next (after (step { running 0x00035005#32 120 s1 with acc := 0xDE#8 }))
    ∧ (after (step { running 0x00035005#32 120 s1 with acc := 0xDE#8 })).rxbuf.read 0
        ≠ s1.rxbuf.read 0 :=
  ⟨rfl, by decide⟩

theorem witness_PinsChangeOnlyWithABusAction :
    (step insideAck = .next (after (step insideAck)) ∧ rstNow insideAck = false)
    ∧ (step (resetting insideAck) = .next (after (step (resetting insideAck)))
      ∧ rstNow (resetting insideAck) = true) := ⟨⟨rfl, rfl⟩, rfl, rfl⟩

/-- A response of END_TX, one of AVAILABLE, one of READ, a step that completes nothing, a reset. -/
theorem witness_EachCompletionRespondsOnce :
    (step (running 0x00000004#32 7 s1) = .next (after (step (running 0x00000004#32 7 s1)))
      ∧ rstNow (running 0x00000004#32 7 s1) = false
      ∧ (running 0x00000004#32 7 s1).engState = .busy
      ∧ (after (step (running 0x00000004#32 7 s1))).engState = .idle
      ∧ decode (running 0x00000004#32 7 s1).cmd ≠ .ok .available
      ∧ decode (running 0x00000004#32 7 s1).cmd ≠ .ok .read)
    ∧ ((after (step (running 0x00000006#32 0 unread))).engState = .idle
      ∧ decode (running 0x00000006#32 0 unread).cmd = .ok .available)
    ∧ ((after (step (running 0x00000007#32 0 unread))).engState = .idle
      ∧ decode (running 0x00000007#32 0 unread).cmd = .ok .read)
    ∧ ¬((running 0x00000004#32 0 s1).engState = .busy
        ∧ (after (step (running 0x00000004#32 0 s1))).engState = .idle)
    ∧ (step (resetting insideAck) = .next (after (step (resetting insideAck)))
      ∧ rstNow (resetting insideAck) = true) :=
  ⟨⟨rfl, rfl, rfl, by decide, by decide, by decide⟩, ⟨by decide, by decide⟩,
    ⟨by decide, by decide⟩, by decide, rfl, rfl⟩

theorem witness_LatchParameterIsFixed :
    step (resetting s1) = .next (after (step (resetting s1))) := rfl

/-! ### Witnesses: line control, bit transport, framing -/

theorem witness_BusActionsWriteTheirLatches :
    s1.sdaLatch = .retain ∧ ({ s1 with sdaLatch := .clear } : State).sdaLatch = .clear := by
  decide

theorem witness_SampleTakesTheEnvironmentsLevel :
    (sampling [true, false] s1).env.sda = true :: [false] ∧ s1.env.sda = [] := by decide

/-- A position for each kind of micro-step. -/
theorem witness_RunningCommandDoesItsNextMicroStep :
    (running 0x00000001#32 0 s1).engState = .busy
    ∧ procedureOf .begin 0 = some (.bus (.setSclDir .out) .nothing)
    ∧ procedureOf (.write 0xAB) 47 = some (.bus (.wait .tSetup) .againUnlessAck)
    ∧ procedureOf (.requestFrom 0x50 3) 63 = some (.bus (.wait .tSetup) (.shift 0))
    ∧ procedureOf .begin 46 = some .setInit
    ∧ procedureOf .endTx 7 = some (.respond 0#8)
    ∧ procedureOf (.requestFrom 0x50 3) 0 = some (.openRead 3)
    ∧ procedureOf (.requestFrom 0x50 248) 17410 = some (.storeByte 247)
    ∧ procedureOf .available 0 = some .available
    ∧ procedureOf .read 0 = some .read
    ∧ drained.rdCursor = drained.expLen ∧ unread.rdCursor ≠ unread.expLen
    ∧ unread.rdCursor.toNat < 248 := by decide

theorem witness_WriteBitsSendsMsbFirst : 1 ≤ 8 ∧ 8 ≤ 8 ∧ 1 ≤ 1 ∧ 1 ≤ 8 := by decide

theorem witness_SerializerRoundTrip :
    1 ≤ 7 ∧ 7 ≤ 8 ∧ runSteps (writeBits 0x50 7) s1 = .next (after (runSteps (writeBits 0x50 7) s1)) :=
  ⟨by decide, by decide, rfl⟩

theorem witness_ReadBitSamplesAfterTheHold : (sampling [true] s1).env.sda = true :: [] := rfl

theorem witness_ReadByteAssemblesMsbFirst :
    (sampling [true, false, true, false, true, false, true, true] s1).env.sda
      = bitsOf 0xAB ++ [] := by decide

/-- Both entries: the clock low, and both lines high. -/
theorem witness_StartMakesOneStartCondition :
    (({ s1 with sclO := false } : State).sclO = false
      ∧ runSteps start { s1 with sclO := false }
          = .next (after (runSteps start { s1 with sclO := false })))
    ∧ ((s1.sclO = true ∧ s1.sdaO = true)
      ∧ runSteps start s1 = .next (after (runSteps start s1))) :=
  ⟨⟨rfl, rfl⟩, ⟨rfl, rfl⟩, rfl⟩

theorem witness_StopConditionIffDataLow :
    runSteps stop s1 = .next (after (runSteps stop s1)) ∧ s1.sdaO = true
    ∧ runSteps stop { s1 with sdaO := false } = .next (after (runSteps stop { s1 with sdaO := false }))
    ∧ ({ s1 with sdaO := false } : State).sdaO = false := ⟨rfl, rfl, rfl, rfl⟩

/-- StopAfterWriteDependsOnLastBit, BeginTxCompletes, WriteCompletes: two samples of 1, then the
acknowledge. -/
theorem witness_acknowledged :
    (sampling [true, true, false] s1).engState = .idle ∧ (sampling [true, true, false] s1).init = true
    ∧ (sampling [true, true, false] s1).env.sda = List.replicate 2 true ++ false :: [] := by decide

/-- One sample of 1, then the acknowledge, at each of the three positions. -/
theorem witness_WaitAckEndsAtTheFirstLow :
    (sampling [true, false] (running 0x0000AB03#32 40 s1)).engState = .busy
    ∧ (sampling [true, false] (running 0x0000AB03#32 40 s1)).env.sda
        = List.replicate 1 true ++ false :: []
    ∧ (running 0x00005002#32 47 s1).upc = 47 ∧ (running 0x0000AB03#32 40 s1).upc = 40
    ∧ (running 0x00035005#32 48 s1).upc = 48 := by decide

theorem witness_UnansweredAckWaitGoesOn :
    (sampling [true, true] (running 0x00005002#32 47 s1)).engState = .busy
    ∧ (sampling [true, true] (running 0x00005002#32 47 s1)).env.sda = List.replicate 2 true ++ []
    ∧ (running 0x00005002#32 47 s1).upc = 47 ∧ (running 0x0000AB03#32 40 s1).upc = 40
    ∧ (running 0x00035005#32 48 s1).upc = 48 := by decide

theorem witness_MasterAckBitPolarity : 0 < 3 ∧ 2 < 3 ∧ 2 + 1 = 3 := by decide

/-! ### Witnesses: completions -/

theorem witness_BeginCompletes : State.reset.engState = .idle ∧ s1.engState = .idle := by decide

theorem witness_EndTxCompletes : s1.engState = .idle ∧ s1.init = true := by decide

/-- The fault clauses of the bus commands' completions: not initialised, and too long. -/
theorem witness_bus_command_faults :
    State.reset.engState = .idle ∧ State.reset.init = false
    ∧ s1.engState = .idle ∧ s1.init = true ∧ 248 < 249 := by decide

/-- RequestFromCompletes and ReceivedBytesAreReadInOrder: one byte, and none. -/
theorem witness_RequestFromCompletes :
    (sampling [false, true, true, false, true, true, true, true, false] s1).engState = .idle
    ∧ (sampling [false, true, true, false, true, true, true, true, false] s1).init = true
    ∧ [0xDE#8].length ≤ 248
    ∧ (sampling [false, true, true, false, true, true, true, true, false] s1).env.sda
        = readLevels 0 [0xDE#8] ++ []
    ∧ (sampling [false] s1).env.sda = readLevels 0 [] ++ [] := by decide

/-- The longest read, 248 bytes (V13). -/
theorem witness_RequestFromCompletes_longest :
    (sampling (readLevels 0 (List.replicate 248 0xA5#8)) s1).engState = .idle
    ∧ (sampling (readLevels 0 (List.replicate 248 0xA5#8)) s1).init = true
    ∧ (List.replicate 248 0xA5#8).length = 248
    ∧ (sampling (readLevels 0 (List.replicate 248 0xA5#8)) s1).env.sda
        = readLevels 0 (List.replicate 248 0xA5#8) ++ [] :=
  ⟨rfl, rfl, List.length_replicate, (List.append_nil _).symm⟩

theorem witness_RequestFromOpensBeforeTheBus :
    s1.engState = .idle ∧ s1.init = true ∧ 248 ≤ 248 ∧ 0 ≤ 248 := by decide

/-- Both entries: from the idle levels, and inside an open transaction with the clock low (V14). -/
theorem witness_RequestFromMakesNoStopCondition :
    ((sampling [false] s1).engState = .idle ∧ (sampling [false] s1).init = true
      ∧ ([] : List Byte).length ≤ 248 ∧ (sampling [false] s1).env.sda = readLevels 0 [] ++ []
      ∧ (sampling [false] s1).sdaLatch = .retain
      ∧ ((sampling [false] s1).sclO = true ∧ (sampling [false] s1).sdaO = true))
    ∧ ((sampling [true, false] { s1 with sclO := false, sdaO := false }).engState = .idle
      ∧ (sampling [true, false] { s1 with sclO := false, sdaO := false }).env.sda
          = readLevels 1 [] ++ []
      ∧ (sampling [true, false] { s1 with sclO := false, sdaO := false }).sclO = false) := by decide

theorem witness_AvailableCompletes :
    drained.engState = .idle ∧ drained.rdCursor = drained.expLen
    ∧ unread.engState = .idle ∧ unread.rdCursor ≠ unread.expLen := by decide

/-- The last legal cursor, 247 of 248, is among them. -/
theorem witness_ReadCompletes :
    (unread.engState = .idle ∧ unread.rdCursor < unread.expLen ∧ unread.expLen.toNat ≤ 248)
    ∧ (({ s1 with expLen := 248#8, rdCursor := 247#8 } : State).engState = .idle
      ∧ ({ s1 with expLen := 248#8, rdCursor := 247#8 } : State).rdCursor
          < ({ s1 with expLen := 248#8, rdCursor := 247#8 } : State).expLen
      ∧ ({ s1 with expLen := 248#8, rdCursor := 247#8 } : State).expLen.toNat ≤ 248) := by decide

theorem witness_ReadPastEndFaults :
    State.reset.engState = .idle ∧ State.reset.expLen ≤ State.reset.rdCursor
    ∧ drained.engState = .idle ∧ drained.expLen ≤ drained.rdCursor := by decide

/-- AvailableIsIdempotent; with its first run, GatedReadDoesNotFault. -/
theorem witness_AvailableIsIdempotent :
    unread.Inv ∧ unread.engState = .idle
    ∧ execRun .available 2 unread = .next (after (execRun .available 2 unread))
    ∧ execRun .available 2 (after (execRun .available 2 unread))
        = .next (after (execRun .available 2 (after (execRun .available 2 unread)))) :=
  ⟨witness_inv_unread, rfl, rfl, rfl⟩

theorem witness_GatedReadDoesNotFault :
    unread.Inv ∧ unread.engState = .idle
    ∧ execRun .available 2 unread = .next (after (execRun .available 2 unread))
    ∧ (after (execRun .available 2 unread)).rspData = 0x01#8 :=
  ⟨witness_inv_unread, rfl, rfl, by decide⟩

/-- One byte received, with no READ and with one. -/
theorem witness_AvailableCountsTheReads :
    (sampling [false, true, true, false, true, true, true, true, false] s1).engState = .idle
    ∧ (sampling [false, true, true, false, true, true, true, true, false] s1).init = true
    ∧ [0xDE#8].length ≤ 248
    ∧ (sampling [false, true, true, false, true, true, true, true, false] s1).env.sda
        = readLevels 0 [0xDE#8] ++ []
    ∧ 0 ≤ [0xDE#8].length ∧ 1 ≤ [0xDE#8].length := by decide

/-! ### Witnesses: frames and runs -/

/-- An acceptance, a step inside the procedure and the response, of a command of each kind. -/
theorem witness_BusWriteCommandsFrame :
    exec .begin s1 = .next (after (exec .begin s1))
    ∧ exec (.beginTx 0x50) insideAck = .next (after (exec (.beginTx 0x50) insideAck))
    ∧ exec (.write 0xAB) (running 0x0000AB03#32 1 s1)
        = .next (after (exec (.write 0xAB) (running 0x0000AB03#32 1 s1)))
    ∧ exec .endTx (running 0x00000004#32 7 s1)
        = .next (after (exec .endTx (running 0x00000004#32 7 s1))) := ⟨rfl, rfl, rfl, rfl⟩

/-- The acceptance, a bus action, and the store of byte 0. -/
theorem witness_RequestFromFrame :
    exec (.requestFrom 0x50 3) s1 = .next (after (exec (.requestFrom 0x50 3) s1))
    ∧ (exec (.requestFrom 0x50 3) (running 0x00035005#32 1 s1)
        = .next (after (exec (.requestFrom 0x50 3) (running 0x00035005#32 1 s1)))
      ∧ requestProcedure 0x50 3 1 ≠ some (.openRead 3)
      ∧ requestProcedure 0x50 3 1 ≠ some (.storeByte 0))
    ∧ (exec (.requestFrom 0x50 3) (running 0x00035005#32 120 s1)
        = .next (after (exec (.requestFrom 0x50 3) (running 0x00035005#32 120 s1)))
      ∧ requestProcedure 0x50 3 120 ≠ some (.openRead 3)
      ∧ requestProcedure 0x50 3 120 ≠ some (.storeByte 1)) :=
  ⟨rfl, ⟨rfl, by decide, by decide⟩, rfl, by decide, by decide⟩

/-- The last byte of the longest read. -/
theorem witness_RequestFromStoresEachByte :
    247 < 248 ∧ 248 ≤ 248 ∧ (running 0x00F85005#32 17410 s1).engState = .busy
    ∧ (running 0x00F85005#32 17410 s1).upc = 56 + 70 * 247 + 64
    ∧ (running 0x00F85005#32 17410 s1).rxbuf.wf = true := by decide

theorem witness_BufferCommandsFrame :
    exec .available (running 0x00000006#32 0 unread)
        = .next (after (exec .available (running 0x00000006#32 0 unread)))
    ∧ exec .read (running 0x00000007#32 0 unread)
        = .next (after (exec .read (running 0x00000007#32 0 unread)))
    ∧ exec .read unread = .next (after (exec .read unread))
    ∧ exec .read State.reset = .next (after (exec .read State.reset)) := ⟨rfl, rfl, rfl, rfl⟩

/-- AVAILABLE, run by the machine in two steps. -/
theorem witness_MachineRunIsTheCommandsRun :
    (offering 0x00000006#32 [] unread).env.rst = []
    ∧ (offering 0x00000006#32 [] unread).engState = .idle
    ∧ offered (offering 0x00000006#32 [] unread) = some 0x00000006#32
    ∧ decode 0x00000006#32 = .ok .available
    ∧ execRun .available 2 (latchCommand 0x00000006#32 (offering 0x00000006#32 [] unread))
        = .next (after (execRun .available 2
            (latchCommand 0x00000006#32 (offering 0x00000006#32 [] unread))))
    ∧ (∀ j u, 1 ≤ j → j < 2 →
        execRun .available j (latchCommand 0x00000006#32 (offering 0x00000006#32 [] unread)) = .next u →
        u.engState = .busy) := by
  refine ⟨rfl, rfl, rfl, by decide, rfl, fun j u h1 h2 h => ?_⟩
  obtain rfl : j = 1 := by omega
  cases h; rfl

/-- MinimumDurations: an idle block with a byte to read, and one that is acknowledged. -/
theorem witness_MinimumDurations :
    (unread.engState = .idle ∧ unread.rdCursor < unread.expLen ∧ unread.expLen.toNat ≤ 248)
    ∧ ((sampling [true, false] s1).engState = .idle ∧ (sampling [true, false] s1).init = true
      ∧ (sampling [true, false] s1).env.sda = List.replicate 1 true ++ false :: []
      ∧ (sampling [true, false] s1).env.sda = readLevels 1 [] ++ []
      ∧ ([] : List Byte).length ≤ 248) := by decide

end Sys2Proof.Tests
end

section
/-! The block's scope (00_scope.md): a step is one step of the decoded command, and the parameter
P_SDA_LATCH is fixed. -/

namespace Sys2Proof.Machine

/-! ### A step with reset low -/

theorem step_eq_engineStep {s : State} (hr : rstNow s = false) :
    step s = engineStep (rstNext s) := by simp [step, hr]

/-- 60_exceptions.md R212: an idle block accepts a legal offer by its command's own meaning. -/
theorem engineStep_accepts {s : State} {w : Word} {i : Instr} (hs : s.engState = .idle)
    (hw : offered s = some w) (hd : decode w = .ok i) :
    engineStep s = exec i (latchCommand w s) := by simp [engineStep, accept, hs, hw, hd]

/-- 10_state.md R36, R37: a busy block runs the command its latch holds. -/
theorem engineStep_runsLatch {s : State} {i : Instr} (hs : s.engState = .busy)
    (hd : decode s.cmd = .ok i) : engineStep s = exec i s := by
  simp [engineStep, runLatched, hs, hd]

/-- Settles O8: with reset low the step is the engine's, which decodes the offered word in IDLE and
the latch in BUSY. -/
theorem stepRunsTheDecodedCommand : Obligations.StepRunsTheDecodedCommand := by
  intro s i hr
  refine ⟨fun w hs hw hd => ?_, fun hs hd => ?_⟩
  · rw [step_eq_engineStep hr]
    exact engineStep_accepts (s := rstNext s) hs hw hd
  · rw [step_eq_engineStep hr]
    exact engineStep_runsLatch (s := rstNext s) hs hd

/-! ### The parameter P_SDA_LATCH -/

@[simp] theorem busAction_sdaLatch (a : Action) (s : State) :
    (busAction a s).sdaLatch = s.sdaLatch := by rw [busAction_frame]

@[simp] theorem afterAction_sdaLatch (k : After) (s : State) :
    (afterAction k s).sdaLatch = s.sdaLatch := by rw [afterAction_frame]

@[simp] theorem availableLine_sdaLatch (s : State) : (availableLine s).sdaLatch = s.sdaLatch := by
  unfold availableLine; split <;> rfl

theorem runMicroStep_sdaLatch {m : MicroStep} {s t : State} (h : runMicroStep m s = .next t) :
    t.sdaLatch = s.sdaLatch := by
  obtain ⟨a, k, -, rfl⟩ | ⟨n, -, rfl⟩ | ⟨i, -, -, rfl⟩ | ⟨-, rfl⟩ | ⟨v, -, rfl⟩ | ⟨-, rfl⟩ |
    ⟨-, -, rfl⟩ := runMicroStep_next_cases h <;> simp

theorem exec_sdaLatch {i : Instr} {s t : State} (h : exec i s = .next t) :
    t.sdaLatch = s.sdaLatch := by
  obtain ⟨-, c, -, rfl⟩ | ⟨-, -, rfl⟩ | ⟨-, m, -, hm⟩ | ⟨-, rfl⟩ := exec_next_cases h
  · exact raiseFault_sdaLatch c s
  · exact startCommand_sdaLatch s
  · exact runMicroStep_sdaLatch hm
  · rfl

/-- Settles O24: by the cases of a step; where the step is a command's, by those of `exec`. -/
theorem latchParameterIsFixed : Obligations.LatchParameterIsFixed := by
  intro s t h
  obtain ⟨-, rfl⟩ | ⟨-, -, -, rfl⟩ | ⟨-, -, w, e, -, -, rfl⟩ | ⟨-, -, w, i, -, -, hx⟩ |
    ⟨-, -, i, -, hx⟩ | ⟨-, -, rfl⟩ := step_next_cases h
  · simp
  · simp
  · simp
  · simpa using exec_sdaLatch hx
  · simpa using exec_sdaLatch hx
  · simp

end Sys2Proof.Machine
end

section
/-! What stands at each position of the commands' procedures, said once for all commands. -/

namespace Sys2Proof.Machine

/-! ### The micro-steps of a procedure -/

/-- A bus action that sets a level or waits: the block's line directions stay. -/
def bitLevel : MicroStep → Bool
  | .bus (.setScl _) .nothing => true
  | .bus (.setSda _) .nothing => true
  | .bus (.wait _) .nothing => true
  | _ => false

/-- A whole ReadBit (41_bit_transport.md R122) stands in the procedure `p` from position `b` on. -/
def ReadBitAt (p : Nat → Option MicroStep) (b : Nat) (k : After) : Prop :=
  ∀ d, d < 8 → p (b + d) = (readBit k)[d]?

/-- How many micro-steps the procedure of a command has. -/
def procedureLength : Instr → Nat
  | .begin => 48
  | .beginTx _ => 56
  | .write _ => 49
  | .endTx => 8
  | .requestFrom _ n => 64 + 70 * n
  | .available => 1
  | .read => 1

/-- The micro-step is a response: it completes the command (10_state.md R38). -/
def completes : MicroStep → Bool
  | .bus _ _ => false
  | .openRead _ => false
  | .storeByte _ => false
  | .setInit => false
  | .respond _ => true
  | .available => true
  | .read => true

/-- The micro-steps of a command that belong neither to a bit cycle nor to a ReadBit, each with its
position: BEGIN's switches of the line directions, the register lines and the completion. -/
inductive OwnStep : Instr → Nat → MicroStep → Prop
  | sclOut {u} (hu : u = 0) : OwnStep .begin u (act (.setSclDir .out))
  | sdaOut {u} (hu : u = 1) : OwnStep .begin u (act (.setSdaDir .out))
  | setInit {u} (hu : u = 46) : OwnStep .begin u .setInit
  | openRead {a n u} (hu : u = 0) : OwnStep (.requestFrom a n) u (.openRead n)
  | storeByte {a n u j} (hj : j < n) (hu : u = 56 + 70 * j + 64) :
      OwnStep (.requestFrom a n) u (.storeByte j)
  | respond {i u} (ha : i ≠ .available) (hr : i ≠ .read) (hu : u + 1 = procedureLength i) :
      OwnStep i u (.respond 0#8)
  | available {u} (hu : u = 0) : OwnStep .available u .available
  | read {u} (hu : u = 0) : OwnStep .read u .read

/-- The micro-steps `ms`, standing from position `o` on, are bit-level actions, whole ReadBits, and
micro-steps that `P` allows at their positions. -/
inductive FramedAt (P : Nat → MicroStep → Prop) : Nat → List MicroStep → Prop
  | nil {o} : FramedAt P o []
  | level {o m ms} (hm : bitLevel m = true) (h : FramedAt P (o + 1) ms) : FramedAt P o (m :: ms)
  | own {o m ms} (hm : P o m) (h : FramedAt P (o + 1) ms) : FramedAt P o (m :: ms)
  | readBit {o k ms} (h : FramedAt P (o + 8) ms) : FramedAt P o (readBit k ++ ms)

/-- What the micro-step `m` at position `u` of the procedure `p` is. -/
inductive PlacedAt (P : Nat → MicroStep → Prop) (p : Nat → Option MicroStep) (u : Nat)
    (m : MicroStep) : Prop
  | level (hm : bitLevel m = true)
  | own (hm : P u m)
  | readBit {b k d} (hd : d < 8) (hu : u = b + d) (h : ReadBitAt p b k)

variable {P : Nat → MicroStep → Prop} {p : Nat → Option MicroStep} {o : Nat}
  {ms ns : List MicroStep}

theorem FramedAt.append (h : FramedAt P o ms) (hn : FramedAt P (o + ms.length) ns) :
    FramedAt P o (ms ++ ns) := by
  induction h with
  | nil => exact hn
  | level hm _ ih => exact .level hm (ih (by simpa [Nat.add_assoc, Nat.add_comm 1] using hn))
  | own hm _ ih => exact .own hm (ih (by simpa [Nat.add_assoc, Nat.add_comm 1] using hn))
  | readBit _ ih =>
    rw [List.append_assoc]
    exact .readBit (ih (by simpa [Nat.add_assoc] using hn))

theorem FramedAt.of_levels (h : ms.all bitLevel = true) : FramedAt P o ms := by
  induction ms generalizing o with
  | nil => exact .nil
  | cons m ms ih =>
    obtain ⟨hm, hms⟩ : bitLevel m = true ∧ ms.all bitLevel = true := by simpa using h
    exact .level hm (ih hms)

/-- A framed stretch of a procedure tells what its micro-steps are. -/
theorem FramedAt.placed (h : FramedAt P o ms) (hp : ∀ j < ms.length, p (o + j) = ms[j]?) {j : Nat}
    {m : MicroStep} (hm : ms[j]? = some m) : PlacedAt P p (o + j) m := by
  induction h generalizing j with
  | nil => simp at hm
  | @level o m' ms hm' _ ih =>
    cases j with
    | zero => cases hm; exact .level hm'
    | succ j =>
      rw [Nat.add_comm j, ← Nat.add_assoc]
      exact ih (fun j hj => by simpa [Nat.add_assoc, Nat.add_comm 1] using hp (j + 1) (by simpa)) hm
  | @own o m' ms hm' _ ih =>
    cases j with
    | zero => cases hm; exact .own hm'
    | succ j =>
      rw [Nat.add_comm j, ← Nat.add_assoc]
      exact ih (fun j hj => by simpa [Nat.add_assoc, Nat.add_comm 1] using hp (j + 1) (by simpa)) hm
  | @readBit o k ms _ ih =>
    by_cases hj : j < 8
    · refine .readBit (k := k) hj rfl fun d hd => ?_
      rw [hp d (by simp; omega), List.getElem?_append_left (by simpa using hd)]
    · obtain ⟨j, rfl⟩ := Nat.exists_eq_add_of_le (Nat.le_of_not_lt hj)
      rw [← Nat.add_assoc]
      have hr (j : Nat) : (Machine.readBit k ++ ms)[8 + j]? = ms[j]? := by
        rw [List.getElem?_append_right (by simp)]; simp
      exact ih (fun j hj => by rw [← hr, ← hp _ (by simp; omega), Nat.add_assoc]) (hr j ▸ hm)

/-! ### The parts of the procedures -/

theorem writeBits_levels (v : Byte) (n : Nat) : (writeBits v n).all bitLevel = true := by
  induction n with
  | zero => rfl
  | succ n ih => rw [writeBits, List.all_append, ih]; rfl

theorem masterAckBit_levels (i n : Nat) : (masterAckBit i n).all bitLevel = true := by
  unfold masterAckBit; split <;> exact writeBits_levels _ _

theorem readBitsFrom_framed (j n : Nat) : FramedAt P o (readBitsFrom j n) := by
  induction n generalizing j o with
  | zero => exact .nil
  | succ n ih => exact .readBit (ih (j + 1))

theorem readByte_framed : FramedAt P o readByte := readBitsFrom_framed 0 8

theorem waitAck_framed : FramedAt P o waitAck := .readBit (ms := []) .nil

theorem addressPhase_framed (a : Byte) (dir : Level) : FramedAt P o (addressPhase a dir) :=
  ((FramedAt.of_levels (writeBits_levels _ _)).append (.of_levels (writeBits_levels _ _))).append
    waitAck_framed

theorem start_framed : FramedAt P o start := .of_levels rfl

theorem stop_framed : FramedAt P o stop := .of_levels rfl

/-! ### The procedures -/

theorem beginProcedure_framed : FramedAt (OwnStep .begin) 0 beginProcedure :=
  .own (.sclOut rfl) (.own (.sdaOut rfl)
    ((FramedAt.of_levels (ms := act (.setScl false) :: dummyClocks 9 ++ stop) rfl).append
      (.own (.setInit rfl) (.own (.respond nofun nofun rfl) .nil))))

theorem beginTxProcedure_framed (a : Byte) :
    FramedAt (OwnStep (.beginTx a)) 0 (beginTxProcedure a) :=
  (start_framed.append (addressPhase_framed a false)).append
    (.own (.respond nofun nofun (by simp [procedureLength])) .nil)

theorem writeProcedure_framed (d : Byte) : FramedAt (OwnStep (.write d)) 0 (writeProcedure d) :=
  ((FramedAt.of_levels (writeBits_levels d 8)).append waitAck_framed).append
    (.own (.respond nofun nofun (by simp [procedureLength])) .nil)

theorem endTxProcedure_framed : FramedAt (OwnStep .endTx) 0 endTxProcedure :=
  stop_framed.append (.own (.respond nofun nofun rfl) .nil)

theorem requestHead_framed (a : Byte) (n : Nat) :
    FramedAt (OwnStep (.requestFrom a n)) 0 (requestHead a n) :=
  .own (.openRead rfl) (start_framed.append (addressPhase_framed a true))

theorem requestBody_framed (a : Byte) {i n : Nat} (hi : i < n) :
    FramedAt (OwnStep (.requestFrom a n)) (56 + 70 * i) (requestBody i n) :=
  (readByte_framed.append (.own (.storeByte hi (by simp)) .nil)).append
    (.of_levels (masterAckBit_levels i n))

theorem requestTail_framed (a : Byte) (n : Nat) :
    FramedAt (OwnStep (.requestFrom a n)) (56 + 70 * n) requestTail :=
  stop_framed.append (.own (.respond nofun nofun (by simp [procedureLength]; omega)) .nil)

/-- What the micro-step at a position of a command's procedure is. -/
theorem procedureOf_placed {i : Instr} {u : Nat} {m : MicroStep} (h : procedureOf i u = some m) :
    PlacedAt (OwnStep i) (procedureOf i) u m := by
  have list {ms : List MicroStep} (hf : FramedAt (OwnStep i) 0 ms)
      (hp : ∀ u, procedureOf i u = ms[u]?) : PlacedAt (OwnStep i) (procedureOf i) u m := by
    simpa using hf.placed (p := procedureOf i) (fun j _ => by simpa using hp j) (hp u ▸ h)
  cases i with
  | begin => exact list beginProcedure_framed fun _ => rfl
  | beginTx a => exact list (beginTxProcedure_framed a) fun _ => rfl
  | write d => exact list (writeProcedure_framed d) fun _ => rfl
  | endTx => exact list endTxProcedure_framed fun _ => rfl
  | available => exact list (ms := availableProcedure) (.own (.available rfl) .nil) fun _ => rfl
  | read => exact list (ms := readProcedure) (.own (.read rfl) .nil) fun _ => rfl
  | requestFrom a n =>
    change requestProcedure a n u = some m at h
    obtain hu | ⟨i, j, hi, hj, rfl⟩ | ⟨j, rfl⟩ := requestProcedure_position n u
    · rw [requestProcedure_head a n u hu] at h
      simpa using (requestHead_framed a n).placed (p := procedureOf (.requestFrom a n))
        (fun j hj => by
          rw [Nat.zero_add]
          exact requestProcedure_head a n j (by simpa [requestHeadSteps] using hj)) h
    · rw [requestProcedure_body a n i j hi hj] at h
      exact (requestBody_framed a hi).placed
        (fun j hj => requestProcedure_body a n i j hi (by simpa [requestBodySteps] using hj)) h
    · rw [requestProcedure_tail] at h
      exact (requestTail_framed a n).placed (fun j _ => requestProcedure_tail a n j) h

end Sys2Proof.Machine
end

section
/-! Inversion of the procedures: from a micro-step to its command and its position, and the
positions that follow it. -/

namespace Sys2Proof.Machine

/-- A micro-step that is neither a bit-level action nor one of a ReadBit's is the command's own. -/
theorem procedureOf_own {i : Instr} {u : Nat} {m : MicroStep} (h : procedureOf i u = some m)
    (hl : bitLevel m = false) (hr : ∀ k, m ∉ readBit k) : OwnStep i u m := by
  cases procedureOf_placed h with
  | level hm => simp [hm] at hl
  | own hm => exact hm
  | readBit hd hu hb =>
    have hm := hb _ hd
    rw [← hu, h] at hm
    exact absurd (List.mem_of_getElem? hm.symm) (hr _)

section
variable {i : Instr} {u : Nat}

theorem procedureOf_setInit (h : procedureOf i u = some .setInit) : i = .begin ∧ u = 46 := by
  cases procedureOf_own h rfl (by simp [readBit, act]) with
  | setInit hu => exact ⟨rfl, hu⟩

theorem procedureOf_openRead {n : Nat} (h : procedureOf i u = some (.openRead n)) :
    u = 0 ∧ ∃ a, i = .requestFrom a n := by
  cases procedureOf_own h rfl (by simp [readBit, act]) with
  | openRead hu => exact ⟨hu, _, rfl⟩

theorem procedureOf_storeByte {j : Nat} (h : procedureOf i u = some (.storeByte j)) :
    0 < u ∧ ∃ a n, i = .requestFrom a n ∧ j < n := by
  cases procedureOf_own h rfl (by simp [readBit, act]) with
  | storeByte hj hu => exact ⟨by omega, _, _, rfl, hj⟩

theorem procedureOf_respond {v : Byte} (h : procedureOf i u = some (.respond v)) :
    v = 0#8 ∧ i ≠ .available ∧ i ≠ .read ∧ u + 1 = procedureLength i := by
  cases procedureOf_own h rfl (by simp [readBit, act]) with
  | respond ha hr hu => exact ⟨rfl, ha, hr, hu⟩

theorem procedureOf_available (h : procedureOf i u = some .available) :
    i = .available ∧ u = 0 := by
  cases procedureOf_own h rfl (by simp [readBit, act]) with
  | available hu => exact ⟨rfl, hu⟩

theorem procedureOf_read (h : procedureOf i u = some .read) : i = .read ∧ u = 0 := by
  cases procedureOf_own h rfl (by simp [readBit, act]) with
  | read hu => exact ⟨rfl, hu⟩

/-- The clock line is never released by a command. -/
theorem procedureOf_setSclDir {d : Dir} {k : After}
    (h : procedureOf i u = some (.bus (.setSclDir d) k)) : d = .out := by
  cases procedureOf_own h rfl (by simp [readBit, act]) with
  | sclOut => rfl

/-- A switch of the data line's direction has nothing behind it. -/
theorem procedureOf_setSdaDir {d : Dir} {k : After}
    (h : procedureOf i u = some (.bus (.setSdaDir d) k)) : k = .nothing := by
  by_cases hr : ∃ k', MicroStep.bus (.setSdaDir d) k ∈ readBit k'
  · obtain ⟨k', hk⟩ := hr
    obtain ⟨-, hk⟩ | ⟨-, hk⟩ : (d = .input ∧ k = .nothing) ∨ (d = .out ∧ k = .nothing) := by
      simpa [readBit, act] using hk
    all_goals exact hk
  · cases procedureOf_own h rfl (by simpa using hr) with
    | sdaOut => rfl

theorem readBit_release {k : After} {d : Nat}
    (h : (readBit k)[d]? = some (act (.setSdaDir .input))) : d = 0 := by
  match d with
  | 0 => rfl
  | 1 | 2 | 3 | 4 | 5 | 6 | 7 | d + 8 => simp [readBit, act] at h

theorem readBit_again {k : After} {a : Action} {d : Nat}
    (h : (readBit k)[d]? = some (.bus a .againUnlessAck)) :
    d = 7 ∧ k = .againUnlessAck ∧ a = .wait .tSetup := by
  match d with
  | 7 => simpa [readBit, eq_comm, and_comm] using h
  | 0 | 1 | 2 | 3 | 4 | 5 | 6 | d + 8 => simp [readBit, act] at h

/-- The data line is released only by a ReadBit. -/
theorem procedureOf_release (h : procedureOf i u = some (act (.setSdaDir .input))) :
    ∃ k, ReadBitAt (procedureOf i) u k := by
  cases procedureOf_placed h with
  | level hm => simp [bitLevel, act] at hm
  | own hm => cases hm
  | @readBit b k d hd hu hb =>
    have hm := hb _ hd
    rw [← hu, h] at hm
    cases readBit_release hm.symm
    exact ⟨k, hu ▸ hb⟩

/-- WaitAck's loop end closes a ReadBit. -/
theorem procedureOf_again {a : Action} (h : procedureOf i u = some (.bus a .againUnlessAck)) :
    a = .wait .tSetup ∧ ∃ b, u = b + 7 ∧ ReadBitAt (procedureOf i) b .againUnlessAck := by
  cases procedureOf_placed h with
  | level hm => cases a <;> simp [bitLevel] at hm
  | own hm => cases hm
  | @readBit b k d hd hu hb =>
    have hm := hb _ hd
    rw [← hu, h] at hm
    obtain ⟨rfl, rfl, ha⟩ := readBit_again hm.symm
    exact ⟨ha, b, hu, hb⟩

/-- AVAILABLE and READ have no bus action. -/
theorem procedureOf_bus {a : Action} {k : After} (h : procedureOf i u = some (.bus a k)) :
    i ≠ .available ∧ i ≠ .read := by
  constructor
  · rintro rfl
    cases u <;> simp [procedureOf, availableProcedure] at h
  · rintro rfl
    cases u <;> simp [procedureOf, readProcedure] at h

/-! ### The next position -/

theorem procedureOf_isSome : (procedureOf i u).isSome = true ↔ u < procedureLength i := by
  cases i with
  | requestFrom a n =>
    change (requestProcedure a n u).isSome = true ↔ u < 64 + 70 * n
    obtain hu | ⟨i, j, hi, hj, rfl⟩ | ⟨j, rfl⟩ := requestProcedure_position n u
    · rw [requestProcedure_head a n u hu]
      simp [requestHeadSteps]; omega
    · rw [requestProcedure_body a n i j hi hj]
      simp [requestBodySteps]; omega
    · rw [requestProcedure_tail]
      simp; omega
  | _ => simp [procedureOf, procedureLength, availableProcedure, readProcedure]

/-- A procedure ends with its command's response. -/
theorem completes_of_last {m : MicroStep} (h : procedureOf i u = some m)
    (hu : u + 1 = procedureLength i) : completes m = true := by
  obtain rfl : u = procedureLength i - 1 := by omega
  cases i with
  | requestFrom a n =>
    have hl := requestProcedure_tail a n 7
    have : 56 + 70 * n + 7 = 64 + 70 * n - 1 := by omega
    rw [this] at hl
    cases h.symm.trans hl; rfl
  | _ => cases h; rfl

/-- Only the last micro-step of a procedure completes its command. -/
theorem last_of_completes {m : MicroStep} (h : procedureOf i u = some m)
    (hm : completes m = true) : u + 1 = procedureLength i := by
  cases m with
  | respond v =>
    obtain ⟨-, -, -, hu⟩ := procedureOf_respond h
    exact hu
  | available => obtain ⟨rfl, rfl⟩ := procedureOf_available h; rfl
  | read => obtain ⟨rfl, rfl⟩ := procedureOf_read h; rfl
  | bus | openRead | storeByte | setInit => cases hm

theorem procedureOf_succ_isSome {m : MicroStep} (h : procedureOf i u = some m)
    (hm : completes m = false) : (procedureOf i (u + 1)).isSome = true := by
  have hu : u < procedureLength i := procedureOf_isSome.1 (by simp [h])
  have : u + 1 ≠ procedureLength i := fun hl => by simp [completes_of_last h hl] at hm
  exact procedureOf_isSome.2 (by omega)

end

/-! ### Inside a ReadBit -/

theorem insideReadBit_iff {p : Nat → Option MicroStep} {u : Nat} :
    insideReadBit p u = true ↔ ∃ b, b < u ∧ u ≤ b + 6 ∧ p b = some (act (.setSdaDir .input)) := by
  simp only [insideReadBit, List.any_eq_true, List.mem_range, Bool.and_eq_true, decide_eq_true_eq,
    beq_iff_eq]
  constructor
  · rintro ⟨d, hd, hu, hp⟩
    exact ⟨u - 1 - d, by omega, by omega, hp⟩
  · rintro ⟨b, hb, hu, hp⟩
    exact ⟨u - 1 - b, by omega, by omega, by rwa [show u - 1 - (u - 1 - b) = b by omega]⟩

section
variable {i : Instr} {u : Nat} {m : MicroStep}

/-- A position inside a ReadBit holds one of the micro-steps 1 to 6 of it. -/
theorem readBit_of_inside (h : insideReadBit (procedureOf i) u = true) :
    ∃ b k d, 0 < d ∧ d ≤ 6 ∧ u = b + d ∧ ReadBitAt (procedureOf i) b k := by
  obtain ⟨b, hb, hu, hp⟩ := insideReadBit_iff.1 h
  obtain ⟨k, hk⟩ := procedureOf_release hp
  exact ⟨b, k, u - b, by omega, by omega, by omega, hk⟩

theorem act_of_inside (hp : procedureOf i u = some m)
    (h : insideReadBit (procedureOf i) u = true) : ∃ a, m = act a ∧ a ≠ .setSdaDir .input := by
  obtain ⟨b, k, d, h0, h6, rfl, hb⟩ := readBit_of_inside h
  have hm := hb d (by omega)
  rw [hp] at hm
  interval_cases d <;> exact ⟨_, Option.some.inj hm, by simp⟩

/-- The first position of a ReadBit is inside no other. -/
theorem not_inside_of_release (hp : procedureOf i u = some (act (.setSdaDir .input))) :
    insideReadBit (procedureOf i) u = false := by
  by_contra h
  obtain ⟨a, ha, hne⟩ := act_of_inside hp (by simpa using h)
  cases ha; exact hne rfl

/-- A register line or response is inside no ReadBit. -/
theorem not_inside_of_ne_act (hp : procedureOf i u = some m) (hm : ∀ a, m ≠ act a) :
    insideReadBit (procedureOf i) u = false := by
  by_contra h
  obtain ⟨a, ha, -⟩ := act_of_inside hp (by simpa using h)
  exact hm a ha

/-- A ReadBit is entered by the release of the data line and left by driving it. -/
theorem inside_succ_iff (hp : procedureOf i u = some m) :
    insideReadBit (procedureOf i) (u + 1) = true ↔
      m = act (.setSdaDir .input) ∨
        insideReadBit (procedureOf i) u = true ∧ m ≠ act (.setSdaDir .out) := by
  constructor
  · intro h
    obtain ⟨b, k, d, h0, h6, hu, hb⟩ := readBit_of_inside h
    obtain rfl : u = b + (d - 1) := by omega
    have hm := hb (d - 1) (by omega)
    rw [hp] at hm
    interval_cases d
    · exact .inl (Option.some.inj hm)
    all_goals
      refine .inr ⟨insideReadBit_iff.2 ⟨b, by omega, by omega, hb 0 (by omega)⟩, ?_⟩
      rw [Option.some.inj hm]; simp [act]
  · rintro (rfl | ⟨h, hm⟩)
    · exact insideReadBit_iff.2 ⟨u, by omega, by omega, hp⟩
    · obtain ⟨b, k, d, h0, h6, rfl, hb⟩ := readBit_of_inside h
      have : d ≠ 6 := by
        rintro rfl
        have h6 := hb 6 (by omega)
        rw [hp] at h6
        exact hm (Option.some.inj h6)
      exact insideReadBit_iff.2 ⟨b, by omega, by omega, hb 0 (by omega)⟩

end
end Sys2Proof.Machine
end

section
/-! What a micro-step and a step write, register by register. -/

namespace Sys2Proof.Machine

/-! ### What a bus action leaves unchanged -/

section
variable (a : Action) (k : After) (s : State)

@[simp] theorem busAction_rxbuf : (busAction a s).rxbuf = s.rxbuf := by rw [busAction_frame]
@[simp] theorem busAction_hasUnread : (busAction a s).hasUnread = s.hasUnread := by
  rw [busAction_frame]
@[simp] theorem busAction_rdCursor : (busAction a s).rdCursor = s.rdCursor := by
  rw [busAction_frame]
@[simp] theorem busAction_expLen : (busAction a s).expLen = s.expLen := by rw [busAction_frame]
@[simp] theorem busAction_acc : (busAction a s).acc = s.acc := by rw [busAction_frame]
@[simp] theorem busAction_cmd : (busAction a s).cmd = s.cmd := by rw [busAction_frame]
@[simp] theorem busAction_rspData : (busAction a s).rspData = s.rspData := by rw [busAction_frame]
@[simp] theorem busAction_init : (busAction a s).init = s.init := by rw [busAction_frame]
@[simp] theorem busAction_fault : (busAction a s).fault = s.fault := by rw [busAction_frame]
@[simp] theorem busAction_faultCode : (busAction a s).faultCode = s.faultCode := by
  rw [busAction_frame]
@[simp] theorem busAction_faultCmd : (busAction a s).faultCmd = s.faultCmd := by
  rw [busAction_frame]
@[simp] theorem busAction_responses : (busAction a s).responses = s.responses := by
  rw [busAction_frame]

@[simp] theorem afterAction_rxbuf : (afterAction k s).rxbuf = s.rxbuf := by rw [afterAction_frame]
@[simp] theorem afterAction_hasUnread : (afterAction k s).hasUnread = s.hasUnread := by
  rw [afterAction_frame]
@[simp] theorem afterAction_rdCursor : (afterAction k s).rdCursor = s.rdCursor := by
  rw [afterAction_frame]
@[simp] theorem afterAction_expLen : (afterAction k s).expLen = s.expLen := by
  rw [afterAction_frame]
@[simp] theorem afterAction_engState : (afterAction k s).engState = s.engState := by
  rw [afterAction_frame]
@[simp] theorem afterAction_cmd : (afterAction k s).cmd = s.cmd := by rw [afterAction_frame]
@[simp] theorem afterAction_rspData : (afterAction k s).rspData = s.rspData := by
  rw [afterAction_frame]
@[simp] theorem afterAction_init : (afterAction k s).init = s.init := by rw [afterAction_frame]
@[simp] theorem afterAction_fault : (afterAction k s).fault = s.fault := by rw [afterAction_frame]
@[simp] theorem afterAction_faultCode : (afterAction k s).faultCode = s.faultCode := by
  rw [afterAction_frame]
@[simp] theorem afterAction_faultCmd : (afterAction k s).faultCmd = s.faultCmd := by
  rw [afterAction_frame]
@[simp] theorem afterAction_sclOe : (afterAction k s).sclOe = s.sclOe := by rw [afterAction_frame]
@[simp] theorem afterAction_sdaOe : (afterAction k s).sdaOe = s.sdaOe := by rw [afterAction_frame]
@[simp] theorem afterAction_responses : (afterAction k s).responses = s.responses := by
  rw [afterAction_frame]
@[simp] theorem afterAction_env : (afterAction k s).env = s.env := by rw [afterAction_frame]

end

/-! ### What a micro-step writes -/

/-- The states a micro-step leads to, one rule per kind of micro-step, two for AVAILABLE's line
(44_receive_buffer.md R190). -/
inductive Effect (s : State) : MicroStep → State → Prop
  | bus (a k) : Effect s (.bus a k) (afterAction k (busAction a s))
  | openRead (n) : Effect s (.openRead n) (advance (openReadTransaction n s))
  | storeByte (j) (hj : j < 248) :
      Effect s (.storeByte j) (advance { s with rxbuf := s.rxbuf.write j s.acc })
  | setInit : Effect s .setInit (advance { s with init := true })
  | respond (v) : Effect s (.respond v) (respond v s)
  | drained (hd : s.rdCursor = s.expLen) :
      Effect s .available (Machine.respond 0#8 { s with hasUnread := false })
  | unread (hd : s.rdCursor ≠ s.expLen) : Effect s .available (Machine.respond 1#8 s)
  | read (hc : s.rdCursor.toNat < 248) :
      Effect s .read (readLine (s.rxbuf.read s.rdCursor.toNat) s)

theorem availableLine_drained {s : State} (h : s.rdCursor = s.expLen) :
    availableLine s = respond 0#8 { s with hasUnread := false } := by
  simp [availableLine, State.drained, h]

theorem availableLine_unread {s : State} (h : s.rdCursor ≠ s.expLen) :
    availableLine s = respond 1#8 s := by
  simp [availableLine, State.drained, h]

theorem runMicroStep_next_iff {m : MicroStep} {s t : State} :
    runMicroStep m s = .next t ↔ Effect s m t := by
  constructor
  · intro h
    obtain ⟨a, k, rfl, rfl⟩ | ⟨n, rfl, rfl⟩ | ⟨j, rfl, hj, rfl⟩ | ⟨rfl, rfl⟩ | ⟨v, rfl, rfl⟩ |
      ⟨rfl, rfl⟩ | ⟨rfl, hc, rfl⟩ := runMicroStep_next_cases h
    · exact .bus a k
    · exact .openRead n
    · exact .storeByte j hj
    · exact .setInit
    · exact .respond v
    · by_cases hd : s.rdCursor = s.expLen
      · rw [availableLine_drained hd]; exact .drained hd
      · rw [availableLine_unread hd]; exact .unread hd
    · exact .read hc
  · intro h
    cases h with
    | bus a k => rfl
    | openRead n => rfl
    | storeByte j hj => simp [runMicroStep, memWrite, Config.cap, hj]
    | setInit => rfl
    | respond v => rfl
    | drained hd => rw [← availableLine_drained hd]; rfl
    | unread hd => rw [← availableLine_unread hd]; rfl
    | read hc => simp [runMicroStep, memRead, Config.cap, hc]

namespace Effect

variable {m : MicroStep} {s t : State}

/-- No micro-step touches the command port, the latch or the fault record. -/
theorem port (h : Effect s m t) :
    t.env.cmd = s.env.cmd ∧ t.cmd = s.cmd ∧ t.fault = s.fault ∧ t.faultCode = s.faultCode
      ∧ t.faultCmd = s.faultCmd := by
  cases h <;> simp [busAction_env_cmd]

theorem hasUnread (h : Effect s m t) :
    t.hasUnread = s.hasUnread ∨ (t.hasUnread = true ∧ ∃ n, m = .openRead n)
      ∨ (t.hasUnread = false ∧ m = .available ∧ s.rdCursor = s.expLen) := by
  cases h with
  | openRead n => exact .inr (.inl ⟨rfl, n, rfl⟩)
  | drained hd => exact .inr (.inr ⟨rfl, rfl, hd⟩)
  | _ => exact .inl (by simp)

theorem init (h : Effect s m t) : t.init = s.init ∨ (t.init = true ∧ m = .setInit) := by
  cases h with
  | setInit => exact .inr ⟨rfl, rfl⟩
  | _ => exact .inl (by simp)

theorem rxbuf (h : Effect s m t) :
    t.rxbuf = s.rxbuf ∨ (∃ n, m = .openRead n) ∨ ∃ j, m = .storeByte j := by
  cases h with
  | openRead n => exact .inr (.inl ⟨n, rfl⟩)
  | storeByte j hj => exact .inr (.inr ⟨j, rfl⟩)
  | _ => exact .inl (by simp)

/-- A micro-step that completes no command goes on without a response. -/
theorem silent (h : Effect s m t) (hm : completes m = false) :
    t.engState = s.engState ∧ t.responses = s.responses ∧ t.rspData = s.rspData := by
  cases h with
  | bus | openRead | storeByte | setInit => simp
  | respond | drained | unread | read => cases hm

/-- A micro-step that completes a command responds once and leaves the engine idle. -/
theorem responds (h : Effect s m t) (hm : completes m = true) :
    t.engState = .idle ∧ t.responses = t.rspData :: s.responses := by
  cases h with
  | bus | openRead | storeByte | setInit => cases hm
  | respond | drained | unread | read => simp

end Effect

/-! ### What a step writes -/

/-- A busy command's step is the effect of the micro-step at its position. -/
theorem exec_effect {i : Instr} {m : MicroStep} {s t : State} (hs : s.engState = .busy)
    (hp : procedureOf i s.upc = some m) (he : Effect s m t) : exec i s = .next t := by
  rw [exec_busy hs hp]; exact runMicroStep_next_iff.2 he

/-- What a busy engine's step is, reset low. -/
theorem step_busy {s t : State} (hr : rstNow s = false) (hs : s.engState = .busy)
    (h : step s = .next t) :
    ∃ i m, decode s.cmd = .ok i ∧ procedureOf i s.upc = some m ∧ Effect (rstNext s) m t := by
  rw [step_eq_engineStep hr] at h
  cases hd : decode s.cmd with
  | error e => simp [engineStep, runLatched, hs, hd] at h
  | ok i =>
    rw [engineStep_runsLatch (s := rstNext s) hs hd] at h
    obtain ⟨hs', -⟩ | ⟨hs', -⟩ | ⟨-, m, hp, hm⟩ | ⟨hs', -⟩ := exec_next_cases h
    · simp [hs] at hs'
    · simp [hs] at hs'
    · exact ⟨i, m, rfl, hp, runMicroStep_next_iff.1 hm⟩
    · simp [hs] at hs'

/-- What a step that runs no command writes, reset low: the engine's state and position, the latch,
the fault record and the plan. -/
theorem step_not_busy {s t : State} (hr : rstNow s = false) (hs : s.engState ≠ .busy)
    (h : step s = .next t) :
    t = { s with
      engState := t.engState, upc := t.upc, cmd := t.cmd, fault := t.fault
      faultCode := t.faultCode, faultCmd := t.faultCmd, env := t.env } := by
  obtain ⟨hr', -⟩ | ⟨-, -, -, rfl⟩ | ⟨-, -, w, e, -, -, rfl⟩ | ⟨-, hi, w, i, -, -, hx⟩ |
    ⟨-, hs', -⟩ | ⟨-, -, rfl⟩ := step_next_cases h
  · simp [hr] at hr'
  · rfl
  · rfl
  · have hi' : (latchCommand w (rstNext s)).engState = .idle := hi
    rw [exec_idle hi'] at hx
    cases hc : checkOf i (latchCommand w (rstNext s)) <;> rw [hc] at hx <;> cases hx <;> rfl
  · exact absurd hs' hs
  · rfl

/-- A step that answers a next state is a reset, a step that runs no command, or a micro-step of the
running command. -/
theorem step_kinds {s t : State} (h : step s = .next t) :
    (rstNow s = true ∧ t = applyReset (rstNext s)) ∨
    (rstNow s = false ∧ s.engState ≠ .busy ∧ t = { s with
      engState := t.engState, upc := t.upc, cmd := t.cmd, fault := t.fault
      faultCode := t.faultCode, faultCmd := t.faultCmd, env := t.env }) ∨
    (rstNow s = false ∧ s.engState = .busy ∧ ∃ i m, decode s.cmd = .ok i ∧
      procedureOf i s.upc = some m ∧ Effect (rstNext s) m t) := by
  cases hr : rstNow s with
  | true => simp only [step, hr, if_true] at h; cases h; exact .inl ⟨rfl, rfl⟩
  | false =>
    by_cases hs : s.engState = .busy
    · exact .inr (.inr ⟨rfl, hs, step_busy hr hs h⟩)
    · exact .inr (.inl ⟨rfl, hs, step_not_busy hr hs h⟩)

end Sys2Proof.Machine
end

section
/-! The invariant of the machine: split into its parts, each kept by every micro-step. -/

namespace Sys2Proof.Machine

/-! ### The parts of the invariant -/

/-- The clauses of the invariant about the receive buffer (10_state.md R35, 20_memory.md R60). -/
structure BufferOk (s : State) : Prop where
  bufferForm : s.rxbuf.wf = true
  cursorInRange : s.rdCursor ≤ s.expLen
  lengthInRange : s.expLen.toNat ≤ 248
  flagClear : s.hasUnread = false → s.rdCursor = s.expLen
  restZero : ∀ i, s.expLen.toNat ≤ i → s.rxbuf.read i = 0#8

/-- The clauses about the fault record (10_state.md R40, R41, 60_exceptions.md R211). -/
structure RecordOk (s : State) : Prop where
  faultState : s.engState = .faulted ↔ s.fault = true
  noFault : s.fault = false → s.faultCode = 0#4 ∧ s.faultCmd = 0#32
  faultCodes : s.fault = true → 1 ≤ s.faultCode.toNat ∧ s.faultCode.toNat ≤ 4

/-- The clauses about the line directions (40_line_control.md R112). -/
structure LinesOk (s : State) : Prop where
  clockDriven : s.init = true → s.sclOe = true
  dataDriven : s.init = true → s.sdaOe = !s.insideReadBit
  released : s.init = false →
    (s.engState = .busy ∧ decode s.cmd = .ok .begin) ∨ (s.sclOe = false ∧ s.sdaOe = false)

/-- The clause about the running command (10_state.md R36, R37). -/
def RunningOk (s : State) : Prop :=
  s.engState = .busy →
    ∃ i, decode s.cmd = .ok i ∧ (procedureOf i s.upc).isSome = true ∧ Underway s i

theorem inv_iff {s : State} : s.Inv ↔ BufferOk s ∧ RecordOk s ∧ LinesOk s ∧ RunningOk s :=
  ⟨fun h => ⟨{ h with }, { h with }, { h with }, h.running⟩,
    fun ⟨hb, hf, hl, hr⟩ => { hb, hf, hl with running := hr }⟩

section
variable {s t : State}

theorem BufferOk.congr (h : BufferOk s) (hb : t.rxbuf = s.rxbuf) (hu : t.hasUnread = s.hasUnread)
    (hc : t.rdCursor = s.rdCursor) (he : t.expLen = s.expLen) : BufferOk t := by
  obtain ⟨h1, h2, h3, h4, h5⟩ := h
  constructor <;> simpa only [hb, hu, hc, he]

theorem RecordOk.congr (h : RecordOk s) (hs : t.engState = .faulted ↔ s.engState = .faulted)
    (hf : t.fault = s.fault) (hc : t.faultCode = s.faultCode) (hw : t.faultCmd = s.faultCmd) :
    RecordOk t := by
  obtain ⟨h1, h2, h3⟩ := h
  constructor <;> simpa only [hs, hf, hc, hw]

theorem insideReadBit_of_not_busy (h : s.engState ≠ .busy) : s.insideReadBit = false := by
  simp [State.insideReadBit, h]

theorem insideReadBit_of_busy {i : Instr} (h : s.engState = .busy) (hd : decode s.cmd = .ok i) :
    s.insideReadBit = insideReadBit (procedureOf i) s.upc := by
  simp [State.insideReadBit, h, hd]

/-- While no command runs both lines are outputs from BEGIN on and released before it. -/
theorem LinesOk.atRest (h : LinesOk s) (hs : s.engState ≠ .busy) :
    s.sclOe = s.init ∧ s.sdaOe = s.init := by
  cases hi : s.init with
  | true => exact ⟨h.clockDriven hi, by simpa [insideReadBit_of_not_busy hs] using h.dataDriven hi⟩
  | false => exact (h.released hi).resolve_left fun hb => hs hb.1

theorem LinesOk.of_atRest (hin : s.insideReadBit = false) (hc : s.sclOe = s.init)
    (hd : s.sdaOe = s.init) : LinesOk s where
  clockDriven hi := hc.trans hi
  dataDriven hi := by rw [hd, hi, hin]; rfl
  released hi := .inr ⟨hc.trans hi, hd.trans hi⟩

/-- The environment's plan has no part in the invariant. -/
theorem State.Inv.withEnv (h : s.Inv) (e : Env) : State.Inv { s with env := e } := { h with }

/-! ### Acceptance -/

theorem State.Inv.latchCommand (h : s.Inv) (hs : s.engState = .idle) (w : Word) :
    (latchCommand w s).Inv := by
  obtain ⟨hb, hf, hl, -⟩ := inv_iff.1 h
  have hs' : (Machine.latchCommand w s).engState ≠ .busy := by simp [hs]
  obtain ⟨hc, hd⟩ := hl.atRest (by simp [hs])
  exact inv_iff.2 ⟨hb.congr rfl rfl rfl rfl, hf.congr .rfl rfl rfl rfl,
    .of_atRest (insideReadBit_of_not_busy hs') hc hd, fun hb => absurd hb hs'⟩

theorem FaultCause.code_range (c : FaultCause) : 1 ≤ c.code.toNat ∧ c.code.toNat ≤ 4 := by
  cases c <;> decide

/-- Fault entry writes a legal record and stops the engine. -/
theorem State.Inv.raiseFault (h : s.Inv) (hs : s.engState = .idle) (c : FaultCause) :
    (raiseFault c s).Inv := by
  obtain ⟨hb, -, hl, -⟩ := inv_iff.1 h
  obtain ⟨hc, hd⟩ := hl.atRest (by simp [hs])
  have hf : RecordOk (Machine.raiseFault c s) :=
    ⟨by simp, by simp, fun _ => c.code_range⟩
  exact inv_iff.2 ⟨hb.congr rfl rfl rfl rfl, hf,
    .of_atRest (insideReadBit_of_not_busy (by simp)) hc hd, by simp [RunningOk]⟩

theorem procedureOf_zero_isSome (i : Instr) : (procedureOf i 0).isSome = true :=
  procedureOf_isSome.2 (by cases i <;> simp [procedureLength])

@[simp] theorem insideReadBit_zero (p : Nat → Option MicroStep) : insideReadBit p 0 = false := by
  simp [insideReadBit]

/-- What a command has passed at its acceptance is what its run starts from. -/
theorem underway_startCommand {i : Instr} (hc : checkOf i s = none) :
    Underway (startCommand s) i := by
  cases i with
  | begin => simp [Underway]
  | beginTx a => exact initCheck_eq_none.1 hc
  | write d => exact initCheck_eq_none.1 hc
  | endTx => exact initCheck_eq_none.1 hc
  | requestFrom a n =>
    obtain ⟨hi, hn⟩ := requestCheck_eq_none.1 hc
    exact ⟨hi, hn, by simp⟩
  | available => trivial
  | read => exact readCheck_eq_none.1 hc

theorem State.Inv.startCommand {i : Instr} (h : s.Inv) (hs : s.engState = .idle)
    (hd : decode s.cmd = .ok i) (hc : checkOf i s = none) : (startCommand s).Inv := by
  obtain ⟨hb, hf, hl, -⟩ := inv_iff.1 h
  obtain ⟨hcl, hda⟩ := hl.atRest (by simp [hs])
  have hin : (Machine.startCommand s).insideReadBit = false := by
    rw [insideReadBit_of_busy (s := Machine.startCommand s) rfl hd]; simp
  exact inv_iff.2 ⟨hb.congr rfl rfl rfl rfl, hf.congr (by simp [hs]) rfl rfl rfl,
    .of_atRest hin hcl hda, fun _ => ⟨i, hd, procedureOf_zero_isSome i, underway_startCommand hc⟩⟩

/-- An acceptance of a latched command keeps the invariant. -/
theorem State.Inv.exec_idle {i : Instr} (h : s.Inv) (hs : s.engState = .idle)
    (hd : decode s.cmd = .ok i) (hx : exec i s = .next t) : t.Inv := by
  cases hc : checkOf i s with
  | none => rw [exec_idle_start hs hc] at hx; cases hx; exact h.startCommand hs hd hc
  | some c => rw [exec_idle_fault hs hc] at hx; cases hx; exact h.raiseFault hs c

end

/-! ### A micro-step of the running command -/

section
variable {i : Instr} {m : MicroStep} {s t : State} {a : Action} {k : After}

theorem afterAction_upc_le : (afterAction k s).upc ≤ s.upc + 1 := by
  cases k with
  | againUnlessAck => simp only [afterAction]; split <;> simp; omega
  | _ => simp [afterAction]

theorem Effect.bufferOk (h : Effect s m t) (hp : procedureOf i s.upc = some m) (hu : Underway s i)
    (hb : BufferOk s) : BufferOk t := by
  cases h with
  | openRead n =>
    obtain ⟨-, a, rfl⟩ := procedureOf_openRead hp
    obtain ⟨-, hn, -⟩ := hu
    have hl : (lengthReg n).toNat ≤ 248 := by simp [lengthReg]; omega
    have h0 : 0#8 ≤ lengthReg n := by bv_omega
    exact ⟨rfl, h0, hl, by simp, by simp⟩
  | storeByte j hj =>
    obtain ⟨h0, a, n, rfl, hjn⟩ := procedureOf_storeByte hp
    obtain ⟨-, hn, hopen⟩ := hu
    obtain ⟨he, -, -⟩ := hopen h0
    refine ⟨Memory.wf_write _ hb.bufferForm hj, hb.cursorInRange, hb.lengthInRange, hb.flagClear,
      fun l hl => ?_⟩
    have hl : s.expLen.toNat ≤ l := hl
    have hne : l ≠ j := by
      rw [he] at hl; simp at hl; omega
    exact (Memory.read_write_ne _ hne).trans (hb.restZero l hl)
  | drained hd => exact { hb with flagClear := fun _ => hd }
  | read hc =>
    obtain ⟨rfl, -⟩ := procedureOf_read hp
    have hlt : s.rdCursor < s.expLen := hu
    refine { hb with cursorInRange := ?_, flagClear := fun hf => ?_ }
    · simp only [readLine_rdCursor, readLine_expLen]; bv_omega
    · have := hb.flagClear hf
      bv_omega
  | _ => exact hb.congr (by simp) (by simp) (by simp) (by simp)

theorem Effect.recordOk (h : Effect s m t) (hs : s.engState = .busy) (hf : RecordOk s) :
    RecordOk t := by
  obtain ⟨-, -, h1, h2, h3⟩ := h.port
  refine hf.congr ?_ h1 h2 h3
  cases hm : completes m with
  | true => simp [(h.responds hm).1, hs]
  | false => rw [(h.silent hm).1]

/-! The line directions -/

/-- A command other than BEGIN with a bus action runs only from BEGIN's completion on. -/
theorem init_of_bus (hp : procedureOf i s.upc = some (.bus a k)) (hu : Underway s i)
    (hi : i ≠ .begin) : s.init = true := by
  obtain ⟨ha, hr⟩ := procedureOf_bus hp
  cases i with
  | begin => exact absurd rfl hi
  | beginTx a => exact hu
  | write d => exact hu
  | endTx => exact hu
  | requestFrom a n => exact hu.1
  | available => exact absurd rfl ha
  | read => exact absurd rfl hr

/-- The data line's direction follows the position over a bus action. -/
theorem busAction_sdaOe_succ (hp : procedureOf i s.upc = some (.bus a k))
    (h : s.sdaOe = !insideReadBit (procedureOf i) s.upc) :
    (busAction a s).sdaOe = !insideReadBit (procedureOf i) (s.upc + 1) := by
  have hsucc := inside_succ_iff hp
  cases a with
  | setSdaDir d =>
    cases procedureOf_setSdaDir hp
    cases d with
    | input => simp [hsucc.2 (.inl rfl), busAction, Dir.drives]
    | out =>
      have : insideReadBit (procedureOf i) (s.upc + 1) = false := by
        simpa [act] using hsucc.not
      simp [this, busAction, Dir.drives]
  | _ =>
    have hin : insideReadBit (procedureOf i) (s.upc + 1) = insideReadBit (procedureOf i) s.upc := by
      simpa [act] using hsucc
    exact h.trans (by rw [hin])

/-- WaitAck's loop end stands outside its ReadBit, and so does the loop's start (42_framing.md
R144). -/
theorem again_outside (hp : procedureOf i s.upc = some (.bus a .againUnlessAck)) :
    insideReadBit (procedureOf i) (s.upc - 7) = false := by
  obtain ⟨-, b, hu, hb⟩ := procedureOf_again hp
  rw [hu, Nat.add_sub_cancel]
  exact not_inside_of_release (hb 0 (by omega))

/-- The data line's direction follows the position over a bus action and what is behind it. -/
theorem busStep_sdaOe (hp : procedureOf i s.upc = some (.bus a k))
    (h : s.sdaOe = !insideReadBit (procedureOf i) s.upc) :
    (busAction a s).sdaOe = !insideReadBit (procedureOf i) (afterAction k (busAction a s)).upc := by
  have hsucc := busAction_sdaOe_succ hp h
  cases k with
  | againUnlessAck =>
    obtain ⟨rfl, -⟩ := procedureOf_again hp
    simp only [afterAction]
    split
    · have hin : insideReadBit (procedureOf i) s.upc = false :=
        not_inside_of_ne_act hp (by simp [act])
      simp only [busAction_upc, waitAckBack, again_outside hp]
      exact h.trans (by rw [hin])
    · simpa using hsucc
  | _ => simpa [afterAction] using hsucc

/-- A bus action of a command leaves a driven clock line driven. -/
theorem busAction_sclOe_driven (hp : procedureOf i s.upc = some (.bus a k))
    (hc : s.sclOe = true) : (busAction a s).sclOe = true := by
  by_cases ha : ∃ d, a = .setSclDir d
  · obtain ⟨d, rfl⟩ := ha
    cases procedureOf_setSclDir hp
    rfl
  · rwa [busAction_sclOe s (not_exists.1 ha)]

theorem LinesOk.busStep (hs : s.engState = .busy) (hd : decode s.cmd = .ok i)
    (hp : procedureOf i s.upc = some (.bus a k)) (hu : Underway s i) (h : LinesOk s) :
    LinesOk (afterAction k (busAction a s)) where
  clockDriven hi := by
    simpa using busAction_sclOe_driven hp (h.clockDriven (by simpa using hi))
  dataDriven hi := by
    have hda := h.dataDriven (by simpa using hi)
    rw [insideReadBit_of_busy hs hd] at hda
    rw [insideReadBit_of_busy (i := i) (by simpa using hs) (by simpa using hd)]
    simpa using busStep_sdaOe hp hda
  released hi := by
    by_cases hb : i = .begin
    · exact .inl (by simp [hs, hd, hb])
    · simp [init_of_bus hp hu hb] at hi

/-- At a register line or a response after BEGIN both lines are outputs. -/
theorem LinesOk.driven (hs : s.engState = .busy) (hd : decode s.cmd = .ok i)
    (hp : procedureOf i s.upc = some m) (hm : ∀ a, m ≠ act a) (hi : s.init = true)
    (h : LinesOk s) : s.sclOe = true ∧ s.sdaOe = true := by
  refine ⟨h.clockDriven hi, ?_⟩
  rw [h.dataDriven hi, insideReadBit_of_busy hs hd, not_inside_of_ne_act hp hm]; rfl

/-- A completing command has driven both lines, or has never had them (40_line_control.md R112). -/
theorem LinesOk.atCompletion (hs : s.engState = .busy) (hd : decode s.cmd = .ok i)
    (hp : procedureOf i s.upc = some m) (hm : completes m = true) (hu : Underway s i)
    (h : LinesOk s) : s.sclOe = s.init ∧ s.sdaOe = s.init := by
  cases hi : s.init with
  | true => exact h.driven hs hd hp (by rintro a rfl; cases hm) hi
  | false =>
    refine (h.released hi).resolve_left fun ⟨_, hb⟩ => ?_
    obtain rfl : i = .begin := Except.ok.inj (hd.symm.trans hb)
    obtain ⟨-, -, h47⟩ := hu
    have hlast : s.upc + 1 = 48 := last_of_completes hp hm
    simp [h47 (by omega)] at hi

/-- A register line leads to a position outside the ReadBits, with both lines still outputs. -/
theorem LinesOk.of_line (hp : procedureOf i s.upc = some m) (hm : ∀ a, m ≠ act a)
    (hs : t.engState = .busy) (hd : decode t.cmd = .ok i) (hup : t.upc = s.upc + 1)
    (hi : t.init = true) (hl : t.sclOe = true ∧ t.sdaOe = true) : LinesOk t := by
  have hin : insideReadBit (procedureOf i) (s.upc + 1) = false := by
    simpa [hm, not_inside_of_ne_act hp hm] using (inside_succ_iff hp).not
  obtain ⟨hc, hda⟩ := hl
  exact .of_atRest (by rw [insideReadBit_of_busy hs hd, hup, hin]) (hc.trans hi.symm)
    (hda.trans hi.symm)

theorem Effect.linesOk (h : Effect s m t) (hs : s.engState = .busy) (hd : decode s.cmd = .ok i)
    (hp : procedureOf i s.upc = some m) (hu : Underway s i) (hl : LinesOk s) : LinesOk t := by
  cases h with
  | bus a k => exact hl.busStep hs hd hp hu
  | openRead n =>
    have hne : ∀ a, MicroStep.openRead n ≠ act a := by simp [act]
    obtain ⟨-, a, rfl⟩ := procedureOf_openRead hp
    obtain ⟨hi, -⟩ := hu
    have hlines := hl.driven hs hd hp hne hi
    exact .of_line hp hne hs hd rfl hi hlines
  | storeByte j hj =>
    have hne : ∀ a, MicroStep.storeByte j ≠ act a := by simp [act]
    obtain ⟨-, a, n, rfl, -⟩ := procedureOf_storeByte hp
    obtain ⟨hi, -⟩ := hu
    have hlines := hl.driven hs hd hp hne hi
    exact .of_line hp hne hs hd rfl hi hlines
  | setInit =>
    obtain ⟨rfl, hup⟩ := procedureOf_setInit hp
    obtain ⟨hc, hda, -⟩ := hu
    exact .of_line hp (by simp [act]) hs hd rfl rfl ⟨hc (by omega), hda (by omega)⟩
  | respond | drained | unread | read =>
    obtain ⟨hc, hda⟩ := hl.atCompletion hs hd hp rfl hu
    exact .of_atRest (insideReadBit_of_not_busy (by simp)) hc hda

/-! The position and what the running command has done -/

/-- BEGIN never releases the data line. -/
theorem busAction_sdaOe_driven (hp : procedureOf .begin s.upc = some (.bus a k))
    (hda : s.sdaOe = true) : (busAction a s).sdaOe = true := by
  cases a with
  | setSdaDir d =>
    cases procedureOf_setSdaDir hp
    cases d with
    | out => rfl
    | input =>
      have hmem : act (.setSdaDir .input) ∈ beginProcedure := List.mem_of_getElem? hp
      exact absurd hmem (by decide)
  | _ => exact hda

/-- BEGIN drives the clock line at position 0 and the data line at position 1, and its flag is set
at position 46, which is no bus action. -/
theorem Underway.busStep_begin (hp : procedureOf .begin s.upc = some (.bus a k))
    (hu : Underway s .begin) : Underway (afterAction k (busAction a s)) .begin := by
  obtain ⟨hc, hda, hi⟩ := hu
  have hle : (afterAction k (busAction a s)).upc ≤ s.upc + 1 := by
    simpa using afterAction_upc_le (k := k) (s := busAction a s)
  refine ⟨fun _ => ?_, fun h2 => ?_, fun h47 => ?_⟩
  · by_cases h0 : s.upc = 0
    · rw [h0] at hp; cases hp; simp [busAction, Dir.drives]
    · simpa using busAction_sclOe_driven hp (hc (by omega))
  · by_cases h1 : s.upc = 1
    · rw [h1] at hp; cases hp; simp [busAction, Dir.drives]
    · simpa using busAction_sdaOe_driven hp (hda (by omega))
  · by_cases h46 : s.upc = 46
    · rw [h46] at hp; cases hp
    · simpa using hi (by omega)

theorem Underway.busStep (hp : procedureOf i s.upc = some (.bus a k)) (hu : Underway s i) :
    Underway (afterAction k (busAction a s)) i := by
  cases i with
  | begin => exact hu.busStep_begin hp
  | beginTx a => simpa [Underway] using hu
  | write d => simpa [Underway] using hu
  | endTx => simpa [Underway] using hu
  | available => trivial
  | read => simpa [Underway] using hu
  | requestFrom a n =>
    obtain ⟨hi, hn, hopen⟩ := hu
    have h1 : 1 ≤ s.upc := by
      by_contra h0
      obtain h0 : s.upc = 0 := by omega
      rw [h0] at hp; cases hp
    exact ⟨by simpa using hi, hn, fun _ => by simpa using hopen h1⟩

theorem busStep_isSome (hp : procedureOf i s.upc = some (.bus a k)) :
    (procedureOf i (afterAction k (busAction a s)).upc).isSome = true := by
  have hnext := procedureOf_succ_isSome hp rfl
  cases k with
  | againUnlessAck =>
    have hle : s.upc - 7 < procedureLength i := by
      have := procedureOf_isSome.1 hnext; omega
    simp only [afterAction]
    split
    · simpa [waitAckBack] using procedureOf_isSome.2 hle
    · simpa using hnext
  | _ => simpa [afterAction] using hnext

theorem Effect.runningOk (h : Effect s m t) (hd : decode s.cmd = .ok i)
    (hp : procedureOf i s.upc = some m) (hu : Underway s i) : RunningOk t := by
  intro ht
  obtain ⟨-, hcmd, -⟩ := h.port
  refine ⟨i, by rw [hcmd, hd], ?_⟩
  cases h with
  | bus a k => exact ⟨busStep_isSome hp, hu.busStep hp⟩
  | openRead n =>
    refine ⟨procedureOf_succ_isSome hp rfl, ?_⟩
    obtain ⟨-, a, rfl⟩ := procedureOf_openRead hp
    obtain ⟨hi, hn, -⟩ := hu
    exact ⟨hi, hn, fun _ => ⟨rfl, rfl, rfl⟩⟩
  | storeByte j hj =>
    refine ⟨procedureOf_succ_isSome hp rfl, ?_⟩
    obtain ⟨h0, a, n, rfl, -⟩ := procedureOf_storeByte hp
    obtain ⟨hi, hn, hopen⟩ := hu
    exact ⟨hi, hn, fun _ => hopen h0⟩
  | setInit =>
    refine ⟨procedureOf_succ_isSome hp rfl, ?_⟩
    obtain ⟨rfl, hup⟩ := procedureOf_setInit hp
    obtain ⟨hc, hda, -⟩ := hu
    exact ⟨fun _ => hc (by omega), fun _ => hda (by omega), fun _ => rfl⟩
  | respond | drained | unread | read => cases ht

/-- A micro-step of the running command keeps the invariant. -/
theorem State.Inv.effect (h : s.Inv) (hs : s.engState = .busy) (hd : decode s.cmd = .ok i)
    (hp : procedureOf i s.upc = some m) (he : Effect s m t) : t.Inv := by
  obtain ⟨hb, hf, hl, hr⟩ := inv_iff.1 h
  obtain ⟨i', hd', -, hu⟩ := hr hs
  obtain rfl : i = i' := Except.ok.inj (hd.symm.trans hd')
  exact inv_iff.2 ⟨he.bufferOk hp hu hb, he.recordOk hs hf, he.linesOk hs hd hp hu hl,
    he.runningOk hd hp hu⟩

theorem State.Inv.applyReset (s : State) : (applyReset s).Inv :=
  inv_iff.2 ⟨⟨rfl, by simp, by simp, by simp, by simp⟩, ⟨by simp, by simp, by simp⟩,
    .of_atRest rfl rfl rfl, by simp [RunningOk]⟩

/-- Settles O17: a reset state meets the invariant, an acceptance keeps each of its parts, and so
does every micro-step of the running command. -/
theorem everyStepKeepsTheInvariant : Obligations.EveryStepKeepsTheInvariant := by
  intro s t h hst
  have hn : (rstNext s).Inv := h.withEnv _
  obtain ⟨-, rfl⟩ | ⟨-, -, -, rfl⟩ | ⟨-, hs, w, e, -, -, rfl⟩ | ⟨-, hs, w, i, -, hd, hx⟩ |
    ⟨hr, hs, -⟩ | ⟨-, -, rfl⟩ := step_next_cases hst
  · exact .applyReset _
  · exact hn.withEnv _
  · exact (hn.latchCommand hs w).raiseFault hs _
  · exact (hn.latchCommand hs w).exec_idle hs hd hx
  · obtain ⟨i, m, hd, hp, he⟩ := step_busy hr hs hst
    exact hn.effect hs hd hp he
  · exact hn

end
end Sys2Proof.Machine
end

section
/-! The statements about single registers (10_state.md), each from what `step` and a micro-step's
`Effect` write. -/

namespace Sys2Proof.Machine

/-! ### Reset, waiting and STATUS -/

/-- Settles O16: the reset state is the reset of itself. -/
theorem resetMeetsTheInvariant : Obligations.ResetMeetsTheInvariant :=
  State.Inv.applyReset State.reset

/-- Settles O10: an idle engine that is offered nothing only lets the plan go on. -/
theorem idleBlockWaits : Obligations.IdleBlockWaits := by
  intro s hr hs ho
  have hs' : (rstNext s).engState = .idle := hs
  have ho' : offered (rstNext s) = none := ho
  rw [step_eq_engineStep hr, engineStep, hs', ho']
  rfl

/-- Settles O9: a busy engine's micro-step does not touch the command port, and a faulted engine
changes nothing. -/
theorem offersWaitWhileNotReady : Obligations.OffersWaitWhileNotReady := by
  intro s t hr hready h
  cases hs : s.engState with
  | idle => simp [State.cmdReady, hs] at hready
  | busy =>
    obtain ⟨i, m, -, -, he⟩ := step_busy hr hs h
    exact he.port
  | faulted =>
    have hs' : (rstNext s).engState = .faulted := hs
    rw [step_eq_engineStep hr, engineStep, hs'] at h
    cases h
    exact ⟨rfl, rfl, rfl, rfl, rfl⟩

/-- Every bit of STATUS (10_state.md R41). -/
theorem getLsbD_status (s : State) (k : Nat) :
    s.status.getLsbD k = if k = 0 then s.busy else if k = 1 then s.init
      else if k = 2 then s.hasUnread else if k = 3 then s.fault
      else s.faultCode.getLsbD (k - 4) := by
  show (s.faultCode ++ BitVec.ofBool s.fault ++ BitVec.ofBool s.hasUnread ++ BitVec.ofBool s.init
    ++ BitVec.ofBool s.busy : BitVec (4 + 1 + 1 + 1 + 1)).getLsbD k = _
  match k with
  | 0 | 1 | 2 | 3 => simp only [BitVec.getLsbD_append]; simp
  | k + 4 => simp only [BitVec.getLsbD_append]; simp

theorem status_faultCode (s : State) : s.status.extractLsb' 4 4 = s.faultCode := by
  apply BitVec.eq_of_getLsbD_eq
  intro k hk
  rw [BitVec.getLsbD_extractLsb', getLsbD_status, if_neg (by omega), if_neg (by omega),
    if_neg (by omega), if_neg (by omega), Nat.add_sub_cancel_left]
  simp [hk]

/-- Settles O15: each field is a bit of STATUS, and by the invariant FAULT says whether the engine
is faulted. -/
theorem statusWordFields : Obligations.StatusWordFields := by
  refine ⟨fun s => ⟨?_, ?_, ?_, ?_, status_faultCode s⟩, fun s h => ?_, rfl⟩
  · exact getLsbD_status s 0
  · exact getLsbD_status s 1
  · exact getLsbD_status s 2
  · exact getLsbD_status s 3
  · have hf := h.faultState
    rw [getLsbD_status, getLsbD_status]
    cases hs : s.engState <;> simp_all [State.busy]

/-! ### The writers of HAS_UNREAD, INIT and the buffer -/

/-- Settles O19: only REQUEST_FROM's first line and a drained AVAILABLE write the flag. -/
theorem unreadFlagWriters : Obligations.UnreadFlagWriters := by
  intro s t h
  refine ⟨fun h0 h1 => ?_, fun h1 h0 => ?_, getLsbD_status s 2⟩
  · obtain ⟨-, rfl⟩ | ⟨-, -, ht⟩ | ⟨-, hs, i, m, hd, hp, he⟩ := step_kinds h
    · cases h1
    · rw [ht] at h1; simp [h0] at h1
    · obtain hu | ⟨-, n, rfl⟩ | ⟨hu, -⟩ := he.hasUnread
      · simp [hu, h0] at h1
      · obtain ⟨hu, a, rfl⟩ := procedureOf_openRead hp
        exact ⟨hs, hu, a, n, hd⟩
      · simp [hu] at h1
  · obtain ⟨hr, -⟩ | ⟨-, -, ht⟩ | ⟨-, hs, i, m, hd, hp, he⟩ := step_kinds h
    · exact .inl hr
    · rw [ht] at h0; simp [h1] at h0
    · obtain hu | ⟨hu, -⟩ | ⟨-, rfl, hc⟩ := he.hasUnread
      · simp [hu, h1] at h0
      · simp [hu] at h0
      · obtain ⟨rfl, -⟩ := procedureOf_available hp
        exact .inr ⟨hs, hd, hc⟩

/-- Settles O20: only BEGIN's line writes INIT, and it sets it. -/
theorem initFlagWriters : Obligations.InitFlagWriters := by
  intro s t h
  refine ⟨fun h0 h1 => ?_, fun h1 h0 => ?_⟩
  · obtain ⟨-, rfl⟩ | ⟨-, -, ht⟩ | ⟨-, hs, i, m, hd, hp, he⟩ := step_kinds h
    · cases h1
    · rw [ht] at h1; simp [h0] at h1
    · obtain hu | ⟨-, rfl⟩ := he.init
      · simp [hu, h0] at h1
      · obtain ⟨rfl, -⟩ := procedureOf_setInit hp
        exact ⟨hs, hd⟩
  · obtain ⟨hr, -⟩ | ⟨-, -, ht⟩ | ⟨-, hs, i, m, hd, hp, he⟩ := step_kinds h
    · exact hr
    · rw [ht] at h0; simp [h1] at h0
    · obtain hu | ⟨hu, -⟩ := he.init
      · simp [hu, h1] at h0
      · simp [hu] at h0

/-- Settles O21: only REQUEST_FROM's lines write the buffer. -/
theorem bufferWriters : Obligations.BufferWriters := by
  intro s t l h hne
  obtain ⟨hr, -⟩ | ⟨-, -, ht⟩ | ⟨-, hs, i, m, hd, hp, he⟩ := step_kinds h
  · exact .inl hr
  · rw [ht] at hne; exact absurd rfl hne
  · obtain hb | ⟨n, rfl⟩ | ⟨j, rfl⟩ := he.rxbuf
    · rw [hb] at hne; exact absurd rfl hne
    · obtain ⟨-, a, rfl⟩ := procedureOf_openRead hp
      exact .inr ⟨hs, a, n, hd⟩
    · obtain ⟨-, a, n, rfl, -⟩ := procedureOf_storeByte hp
      exact .inr ⟨hs, a, n, hd⟩

/-! ### Responses -/

/-- The byte of a command's response (10_state.md R38): 0x00 or, for AVAILABLE, 0x01, and for READ
the byte at the cursor. -/
theorem rspData_of_completes {i : Instr} {m : MicroStep} {s t : State} {u : Nat}
    (hp : procedureOf i u = some m) (hm : completes m = true) (he : Effect s m t) :
    (i ≠ .available → i ≠ .read → t.rspData = 0#8)
      ∧ (i = .available → t.rspData = 0#8 ∨ t.rspData = 1#8)
      ∧ (i = .read → t.rspData = s.rxbuf.read s.rdCursor.toNat) := by
  cases he with
  | respond v =>
    obtain ⟨rfl, ha, hr, -⟩ := procedureOf_respond hp
    exact ⟨fun _ _ => rfl, fun h => absurd h ha, fun h => absurd h hr⟩
  | drained | unread =>
    obtain ⟨rfl, -⟩ := procedureOf_available hp
    simp
  | read =>
    obtain ⟨rfl, -⟩ := procedureOf_read hp
    simp
  | bus | openRead | storeByte | setInit => cases hm

/-- Settles O23: a micro-step either completes the command, with one response, or goes on silently;
no other step responds. -/
theorem eachCompletionRespondsOnce : Obligations.EachCompletionRespondsOnce := by
  intro s t h
  obtain ⟨hr, rfl⟩ | ⟨hr, hs, ht⟩ | ⟨hr, hs, i, m, hd, hp, he⟩ := step_kinds h
  · simp [hr]
  · refine ⟨by simp [hr], fun _ => ⟨fun hb => absurd hb hs, fun _ => ?_⟩⟩
    rw [ht]; exact ⟨rfl, rfl⟩
  · refine ⟨by simp [hr], fun _ => ?_⟩
    cases hm : completes m with
    | true =>
      obtain ⟨hi, hrsp⟩ := he.responds hm
      have hdata := rspData_of_completes hp hm he
      simpa [hd, hs, hi, hrsp] using hdata
    | false =>
      obtain ⟨hi, hsil⟩ := he.silent hm
      simpa [hs, hi] using hsil

/-! ### The micro-steps of a running command -/

/-- Settles O27: `exec` answers the effect of the micro-step, one case per kind. -/
theorem runningCommandDoesItsNextMicroStep : Obligations.RunningCommandDoesItsNextMicroStep := by
  intro i s hs
  refine ⟨fun a hp => ?_, fun a hp => ?_, fun a j hp => ?_, fun hp => ?_, fun v hp => ?_,
    fun n hp => ?_, fun j hp hj => ?_, fun hp hc => ?_, fun hp hc => ?_, fun hp hc => ?_⟩
  · rw [exec_effect hs hp (.bus a _), ← busAction_upc a s]; rfl
  · rw [exec_effect hs hp (.bus a _), afterAction, ← busAction_upc a s]
    by_cases hb : (busAction a s).b = true
    · rw [if_pos hb, if_pos hb]; rfl
    · rw [if_neg hb, if_neg hb]; rfl
  · rw [exec_effect hs hp (.bus a _), ← busAction_upc a s, ← busAction_acc a s]; rfl
  · exact exec_effect hs hp .setInit
  · exact exec_effect hs hp (.respond v)
  · exact exec_effect hs hp (.openRead n)
  · exact exec_effect hs hp (.storeByte j hj)
  · exact exec_effect hs hp (.drained hc)
  · exact exec_effect hs hp (.unread hc)
  · exact exec_effect hs hp (.read hc)

end Sys2Proof.Machine
end

section
/-! What the bit serializer and deserializer, Start and Stop leave behind, each as one next state
(41_bit_transport.md, 42_framing.md). -/

namespace Sys2Proof.Machine

/-! ### The bus actions (40_line_control.md R101 to R106) -/

section
variable (l : Level) (d : Delay) (a : Action) (k : After) (ms : List MicroStep) (s : State)

@[simp] theorem busAction_setScl :
    busAction (.setScl l) s = { s with sclO := l, trace := .scl l :: s.trace } := rfl

@[simp] theorem busAction_setSda :
    busAction (.setSda l) s = { s with sdaO := l, trace := .sda l :: s.trace } := rfl

@[simp] theorem busAction_wait :
    busAction (.wait d) s = { s with trace := .wait d :: s.trace } := rfl

@[simp] theorem busAction_setSdaDir_out :
    busAction (.setSdaDir .out) s
      = { s with sdaOe := true, trace := .sdaDir .out :: s.trace } := by
  simp [busAction, setSdaDir, emit, Dir.drives, latchAfterDir]

/-- 40_line_control.md R104: the parameter decides what the release does to the data latch. -/
@[simp] theorem busAction_setSdaDir_input :
    busAction (.setSdaDir .input) s = { s with
      sdaOe := false, sdaO := if s.sdaLatch = .clear then false else s.sdaO
      trace := .sdaDir .input :: s.trace } := by
  simp [busAction, setSdaDir, emit, Dir.drives, latchAfterDir]

/-- 40_line_control.md R106: a Sample takes the environment's level. -/
@[simp] theorem busAction_sample :
    busAction .sample s = { s with
      b := sdaIn s, trace := .sample (sdaIn s) :: s.trace, env := s.env.afterSample } := rfl

@[simp] theorem afterAction_nothing :
    afterAction .nothing s = { s with upc := s.upc + 1 } := rfl

@[simp] theorem runSteps_bus :
    runSteps (.bus a k :: ms) s = runSteps ms (afterAction k (busAction a s)) := rfl

end

/-! ### The serializer -/

/-- The `n` low bits of a byte in the order WriteBits sends them (41_bit_transport.md R120). -/
def lowBits (v : Byte) (n : Nat) : List Level := (List.range n).map fun j => v.getLsbD (n - 1 - j)

theorem lowBits_succ (v : Byte) (n : Nat) : lowBits v (n + 1) = v.getLsbD n :: lowBits v n := by
  simp only [lowBits, List.range_succ_eq_map, List.map_cons, List.map_map, Nat.add_sub_cancel]
  simp [Function.comp_def, Nat.sub_add_eq, Nat.sub_right_comm]

theorem runSteps_bitCycle (l : Level) (s : State) :
    runSteps (bitCycle l) s = .next { s with
      sclO := false, sdaO := l, trace := (evBit l).reverse ++ s.trace, upc := s.upc + 5 } := by
  simp [bitCycle, act, evBit]

/-- 41_bit_transport.md R120: WriteBits of `n` bits ends with bit 0 on the data latch. -/
theorem runSteps_writeBits (v : Byte) (n : Nat) (s : State) :
    runSteps (writeBits v (n + 1)) s = .next { s with
      sclO := false, sdaO := v.getLsbD 0
      trace := ((lowBits v (n + 1)).flatMap evBit).reverse ++ s.trace
      upc := s.upc + 5 * (n + 1) } := by
  induction n generalizing s with
  | zero =>
    rw [writeBits, runSteps_append (runSteps_bitCycle _ s)]
    simp [writeBits, lowBits, bitOf]
  | succ n ih =>
    rw [writeBits, runSteps_append (runSteps_bitCycle _ s), ih, lowBits_succ v (n + 1)]
    simp [bitOf, Nat.mul_add, Nat.add_assoc, Nat.add_comm]

theorem getLsbD_bitValue (l : Level) : (bitValue l).getLsbD 0 = l := by cases l <;> rfl

theorem runSteps_masterAckBit {i n : Nat} (hi : i < n) (s : State) :
    runSteps (masterAckBit i n) s = .next { s with
      sclO := false, sdaO := decide (i + 1 = n)
      trace := (evBit (decide (i + 1 = n))).reverse ++ s.trace, upc := s.upc + 5 } := by
  have hl : masterAckBit i n = writeBits (bitValue (decide (i + 1 = n))) 1 := by
    unfold masterAckBit
    by_cases h : i + 1 = n
    · rw [if_neg (by omega), decide_eq_true h]
    · rw [if_pos (by omega), decide_eq_false h]
  rw [hl, runSteps_writeBits, lowBits_succ, getLsbD_bitValue]
  simp [lowBits]

/-! ### Start, Stop and the address bits -/

theorem runSteps_start (s : State) :
    runSteps start s = .next { s with
      sclO := true, sdaO := false, trace := evStart.reverse ++ s.trace, upc := s.upc + 7 } := by
  simp [start, act, evStart]

theorem runSteps_stop (s : State) :
    runSteps stop s = .next { s with
      sclO := true, sdaO := true, trace := evStop.reverse ++ s.trace, upc := s.upc + 7 } := by
  simp [stop, act, evStop]

/-- An address phase before its WaitAck (42_framing.md R146). -/
def addressBits (a : Byte) (dir : Level) : List MicroStep :=
  writeBits a 7 ++ writeBits (bitValue dir) 1

theorem addressPhase_eq (a : Byte) (dir : Level) :
    addressPhase a dir = addressBits a dir ++ waitAck := rfl

/-- 42_framing.md R146: `a[6:0]`, then the direction bit; `a[7]` is not sent. -/
theorem getLsbD_wireByte (a : Byte) (dir : Level) (k : Nat) :
    (wireByte a dir).getLsbD k = if k = 0 then dir else decide (k < 8) && a.getLsbD (k - 1) := by
  show (a.extractLsb' 0 7 ++ BitVec.ofBool dir : BitVec (7 + 1)).getLsbD k = _
  rw [BitVec.getLsbD_append, BitVec.getLsbD_extractLsb', Nat.zero_add]
  cases k with
  | zero => simp
  | succ k => simp [show k + 1 < 8 ↔ k < 7 by omega]

theorem bitsOf_wireByte (a : Byte) (dir : Level) :
    bitsOf (wireByte a dir) = lowBits a 7 ++ lowBits (bitValue dir) 1 := by
  simp [bitsOf, lowBits, List.range_succ, getLsbD_wireByte, getLsbD_bitValue,
    -BitVec.getLsbD_eq_getElem]

/-- 42_framing.md R146: the address phase sends the wire byte. -/
theorem runSteps_addressBits (a : Byte) (dir : Level) (s : State) :
    runSteps (addressBits a dir) s = .next { s with
      sclO := false, sdaO := dir, trace := (evByte (wireByte a dir)).reverse ++ s.trace
      upc := s.upc + 40 } := by
  rw [addressBits, runSteps_append (runSteps_writeBits a 6 s), runSteps_writeBits, evByte,
    bitsOf_wireByte, getLsbD_bitValue]
  simp

/-! ### The deserializer -/

/-- What ReadBits that sample the levels `ls`, of a plan that goes on with `rest`, leave beside the
accumulator and the sequencer position (41_bit_transport.md R122, 40_line_control.md R104). -/
def afterReadBits (ls rest : List Level) (s : State) : State :=
  { s with
    sclO := false, sdaOe := true, sdaO := if s.sdaLatch = .clear then false else s.sdaO
    b := ls.getLastD s.b, env := { s.env with sda := rest }
    trace := (ls.flatMap evReadBit).reverse ++ s.trace }

/-- 41_bit_transport.md R122: one ReadBit, with what its caller does behind it. -/
theorem runSteps_readBit {s : State} {l : Level} {rest : List Level} (k : After)
    (h : s.env.sda = l :: rest) :
    runSteps (readBit k) s
      = .next (afterAction k { afterReadBits [l] rest s with upc := s.upc + 7 }) := by
  have he : s.env.afterSample = { s.env with sda := rest } := by simp [Env.afterSample, h]
  simp [readBit, act, sdaIn, h, he, afterReadBits, evReadBit]

/-- The accumulator behind ReadBits `j`, `j + 1`, … that sample the levels `ls` (R124). -/
def shiftInAll : Nat → Byte → List Level → Byte
  | _, acc, [] => acc
  | j, acc, l :: ls => shiftInAll (j + 1) (shiftIn j acc l) ls

theorem runSteps_readBitsFrom {s : State} {l : Level} {ls rest : List Level} {j : Nat}
    (h : s.env.sda = l :: ls ++ rest) :
    runSteps (readBitsFrom j (ls.length + 1)) s = .next { afterReadBits (l :: ls) rest s with
      acc := shiftInAll j s.acc (l :: ls), upc := s.upc + 8 * (ls.length + 1) } := by
  induction ls generalizing l j s with
  | nil => rw [readBitsFrom, runSteps_append (runSteps_readBit _ h)]; rfl
  | cons l' ls ih =>
    rw [readBitsFrom, List.length_cons, runSteps_append (runSteps_readBit _ h), ih rfl]
    simp [afterReadBits, afterAction, advance, shiftInAll, List.getLast?_cons]
    omega

/-- The eight bits of a byte, MSB first, shift in as this byte, whatever `acc` held (R124). -/
theorem shiftInAll_bitsOf (acc v : Byte) : shiftInAll 0 acc (bitsOf v) = v := by
  suffices h : ∀ v, shiftInAll 0 0#8 (bitsOf v) = v from h v
  decide

/-- 41_bit_transport.md R124: ReadByte leaves the byte the bus sent in `acc`. -/
theorem runSteps_readByte {s : State} {v : Byte} {rest : List Level}
    (h : s.env.sda = bitsOf v ++ rest) :
    runSteps readByte s = .next { afterReadBits (bitsOf v) rest s with
      acc := v, upc := s.upc + 64 } := by
  have hr := runSteps_readBitsFrom (j := 0) (l := v.getLsbD 7) (ls := lowBits v 7) h
  have hv : shiftInAll 0 s.acc (v.getLsbD 7 :: lowBits v 7) = v := shiftInAll_bitsOf s.acc v
  rw [hv] at hr
  exact hr

end Sys2Proof.Machine
end

section
/-! REQUEST_FROM from its acceptance to its response (43_bus_commands.md R169), as one next state,
and the READs behind it (44_receive_buffer.md R192). -/

namespace Sys2Proof.Machine

/-! ### Runs that end in a loop end or a response -/

theorem runSteps_cons_next {m : MicroStep} {ms : List MicroStep} {s t : State}
    (h : runSteps (m :: ms) s = .next t) :
    ∃ u, runMicroStep m s = .next u ∧ runSteps ms u = .next t := by
  cases hm : runMicroStep m s with
  | next u => exact ⟨u, rfl, by rwa [runSteps_cons hm] at h⟩
  | fault r => simp [runSteps, hm] at h
  | refused r => simp [runSteps, hm] at h

/-- A busy command runs a stretch of its procedure exactly as the list of its micro-steps, when only
the last of them may be a loop end or a response. -/
theorem execRun_of_runSteps {i : Instr} {ms : List MicroStep} {s t : State}
    (hb : s.engState = .busy) (hp : ∀ j < ms.length, procedureOf i (s.upc + j) = ms[j]?)
    (hg : ms.dropLast.all goesOn = true) (h : runSteps ms s = .next t) :
    execRun i ms.length s = .next t := by
  induction ms generalizing s with
  | nil => exact h
  | cons m ms ih =>
    obtain ⟨u, hu, h⟩ := runSteps_cons_next h
    have hx : exec i s = .next u := by rw [exec_busy hb (hp 0 (by simp)), hu]
    rw [List.length_cons, execRun_succ hx]
    cases ms with
    | nil => exact h
    | cons m' ms =>
      obtain ⟨hm, hg⟩ : goesOn m = true ∧ (m' :: ms).dropLast.all goesOn = true := by
        simpa using hg
      obtain ⟨h1, h2⟩ := runMicroStep_goesOn hm hu
      refine ih (h1.trans hb) (fun j hj => ?_) hg h
      rw [h2, Nat.add_assoc, Nat.add_comm 1]
      exact hp (j + 1) (by simpa using hj)

theorem goesOn_of_bitLevel {m : MicroStep} (h : bitLevel m = true) : goesOn m = true := by
  unfold bitLevel at h
  split at h
  · rfl
  · rfl
  · rfl
  · cases h

/-! ### WaitAck -/

/-- 42_framing.md R144: one ReadBit of WaitAck goes back to its first position on a sample of 1. -/
theorem execRun_ackReadBit {i : Instr} {l : Level} {rest : List Level} {s : State}
    (hb : s.engState = .busy) (hw : ReadBitAt (procedureOf i) s.upc .againUnlessAck)
    (h : s.env.sda = l :: rest) :
    execRun i 8 s = .next { afterReadBits [l] rest s with
      upc := if l then s.upc else s.upc + 8 } := by
  refine execRun_of_runSteps (ms := waitAck) hb hw rfl ((runSteps_readBit _ h).trans ?_)
  cases l <;> simp [afterAction, afterReadBits, advance, waitAckBack]

/-- 42_framing.md R144: WaitAck ends at the first sample of 0, at the next position. -/
theorem execRun_waitAck {i : Instr} {k : Nat} {rest : List Level} {s : State}
    (hb : s.engState = .busy) (hw : ReadBitAt (procedureOf i) s.upc .againUnlessAck)
    (h : s.env.sda = List.replicate k true ++ false :: rest) :
    execRun i (8 * (k + 1)) s = .next { afterReadBits (List.replicate k true ++ [false]) rest s with
      upc := s.upc + 8 } := by
  induction k generalizing s with
  | zero => exact execRun_ackReadBit hb hw h
  | succ k ih =>
    rw [Nat.mul_succ, Nat.add_comm, execRun_add (execRun_ackReadBit hb hw h)]
    refine Eq.trans (ih hb hw rfl) ?_
    simp [afterReadBits, List.replicate_succ, List.getLast?_cons]

/-! ### The byte loop -/

/-- The buffer after the bytes `vs` have been stored from index `i` on. -/
def Memory.writeFrom : Memory → Nat → List Byte → Memory
  | m, _, [] => m
  | m, i, v :: vs => (m.write i v).writeFrom (i + 1) vs

theorem Memory.read_writeFrom {m : Memory} {i : Nat} {vs : List Byte} (hm : m.wf = true)
    (h : i + vs.length ≤ Config.cap) (j : Nat) :
    (m.writeFrom i vs).read j = if i ≤ j ∧ j < i + vs.length then vs.getD (j - i) 0#8
      else m.read j := by
  induction vs generalizing m i with
  | nil => rw [if_neg (by simp)]; rfl
  | cons v vs ih =>
    rw [List.length_cons] at h
    rw [Memory.writeFrom, ih (Memory.wf_write v hm (by omega)) (by omega),
      Memory.read_write i v j hm]
    obtain hj | rfl | hj := Nat.lt_trichotomy j i
    · simp [show ¬ i + 1 ≤ j by omega, show ¬ i ≤ j by omega, show j ≠ i by omega]
    · simp
    · obtain ⟨d, rfl⟩ := Nat.exists_eq_add_of_lt hj
      have hin : i ≤ i + d + 1 ∧ i + d + 1 < i + (v :: vs).length
          ↔ i + 1 ≤ i + d + 1 ∧ i + d + 1 < i + 1 + vs.length := by simp; omega
      simp only [hin, if_neg (show i + d + 1 ≠ i by omega)]
      rw [show i + d + 1 - i = d + 1 by omega, show i + d + 1 - (i + 1) = d by omega,
        List.getD_cons_succ]

/-- 43_bus_commands.md R169: a buffer opened with zeroes holds the received bytes and zeroes. -/
theorem Memory.read_received {bytes : List Byte} (h : bytes.length ≤ 248) (j : Nat) :
    (Memory.zeroed.writeFrom 0 bytes).read j = bytes.getD j 0#8 := by
  rw [Memory.read_writeFrom rfl (by simpa [Config.cap] using h)]
  by_cases hj : j < bytes.length <;> simp [hj]

/-- What one pass of REQUEST_FROM's byte loop leaves behind: byte `i` of the read is `v`, the master
ack bit is `ack`, and the levels planned after the byte are `rest`. -/
def afterPass (i : Nat) (v : Byte) (ack : Level) (rest : List Level) (s : State) : State :=
  { s with
    rxbuf := s.rxbuf.write i v, sclO := false, sdaOe := true, sdaO := ack
    b := v.getLsbD 0, acc := v, env := { s.env with sda := rest }
    trace := (evReadByte v ++ evBit ack).reverse ++ s.trace, upc := s.upc + 70 }

/-- What REQUEST_FROM's byte loop, from index `i` on, leaves behind when the bus sends the bytes
`vs` and the levels planned after them are `rest`. -/
def afterBytes (i : Nat) (vs : List Byte) (rest : List Level) (s : State) : State :=
  { s with
    rxbuf := s.rxbuf.writeFrom i vs
    sdaO := (vs.map fun _ => true).getLastD s.sdaO
    b := (vs.map (·.getLsbD 0)).getLastD s.b, acc := vs.getLastD s.acc
    env := { s.env with sda := rest }
    trace := (evBytes vs).reverse ++ s.trace, upc := s.upc + 70 * vs.length }

theorem evBytes_cons (v : Byte) (vs : List Byte) :
    evBytes (v :: vs) = evReadByte v ++ evBit vs.isEmpty ++ evBytes vs := by
  cases vs <;> simp [evBytes]

theorem afterBytes_cons {i : Nat} {v : Byte} {vs : List Byte} {rest rest' : List Level} {s : State}
    (hc : s.sclO = false) (hd : s.sdaOe = true) :
    afterBytes i (v :: vs) rest s
      = afterBytes (i + 1) vs rest (afterPass i v vs.isEmpty rest' s) := by
  obtain rfl | ⟨ws, w, rfl⟩ := vs.eq_nil_or_concat
  · simp [afterBytes, afterPass, Memory.writeFrom, evBytes_cons, hc, hd]
  · simp [afterBytes, afterPass, Memory.writeFrom, evBytes_cons, hc, hd, List.getLast?_cons]
    omega

theorem bitsOf_getLastD (v : Byte) (l : Level) : (bitsOf v).getLastD l = v.getLsbD 0 := rfl

theorem runSteps_requestBody {i n : Nat} {v : Byte} {rest : List Level} {s : State} (hi : i < n)
    (hn : n ≤ 248) (h : s.env.sda = bitsOf v ++ rest) :
    runSteps (requestBody i n) s = .next (afterPass i v (decide (i + 1 = n)) rest s) := by
  have hstore (t : State) : runMicroStep (.storeByte i) t
      = .next (advance { t with rxbuf := t.rxbuf.write i t.acc }) :=
    runMicroStep_next_iff.2 (.storeByte i (by omega))
  rw [requestBody, List.append_assoc, runSteps_append (runSteps_readByte h), List.singleton_append,
    runSteps_cons (hstore _), runSteps_masterAckBit hi]
  simp only [afterReadBits, bitsOf_getLastD]
  simp [afterPass, advance, evReadByte]

theorem requestBody_goesOn (i n : Nat) : ∀ m ∈ requestBody i n, goesOn m = true := by
  have hr : ∀ m ∈ readByte, goesOn m = true := by decide
  simp only [requestBody, List.forall_mem_append]
  exact ⟨⟨hr, by simp [goesOn]⟩, fun m hm =>
    goesOn_of_bitLevel (List.all_eq_true.1 (masterAckBit_levels i n) m hm)⟩

/-- REQUEST_FROM's byte loop from index `i` on, at the position and with the lines a pass or the
address phase leaves. -/
theorem execRun_requestBytes {a : Byte} {n i : Nat} {vs : List Byte} {rest : List Level} {s : State}
    (hb : s.engState = .busy) (hu : s.upc = 56 + 70 * i) (hin : i + vs.length = n) (hn : n ≤ 248)
    (hc : s.sclO = false) (hd : s.sdaOe = true) (h : s.env.sda = vs.flatMap bitsOf ++ rest) :
    execRun (.requestFrom a n) (70 * vs.length) s = .next (afterBytes i vs rest s) := by
  induction vs generalizing i s with
  | nil => simp at h; subst h; rfl
  | cons v vs ih =>
    rw [List.length_cons] at hin
    rw [List.flatMap_cons, List.append_assoc] at h
    have hlast : decide (i + 1 = n) = vs.isEmpty := by
      rw [Bool.eq_iff_iff, decide_eq_true_iff, List.isEmpty_iff_length_eq_zero]; omega
    obtain ⟨hrun, -, -⟩ := execRun_eq_runSteps (i := .requestFrom a n) hb
      (fun j hj => by
        rw [length_requestBody] at hj
        rw [hu]
        exact requestProcedure_body a n i j (by omega) hj)
      (requestBody_goesOn i n) (runSteps_requestBody (by omega) hn h)
    rw [length_requestBody, requestBodySteps, hlast] at hrun
    rw [List.length_cons, Nat.mul_succ, Nat.add_comm, execRun_add hrun, afterBytes_cons hc hd]
    exact ih hb (by simp [afterPass, hu]; omega) (by omega) rfl rfl rfl

/-! ### Before and behind the byte loop -/

/-- REQUEST_FROM before its WaitAck: the first line, Start and the address bits (R169). -/
def requestOpening (a : Byte) (n : Nat) : List MicroStep :=
  .openRead n :: start ++ addressBits a true

theorem requestHead_eq (a : Byte) (n : Nat) : requestHead a n = requestOpening a n ++ waitAck := by
  simp [requestHead, requestOpening, addressPhase_eq]

@[simp] theorem length_requestOpening (a : Byte) (n : Nat) : (requestOpening a n).length = 48 := by
  simp [requestOpening, addressBits]

theorem requestOpening_goesOn (a : Byte) (n : Nat) :
    ∀ m ∈ requestOpening a n, goesOn m = true := by
  have hs : ∀ m ∈ start, goesOn m = true := by decide
  have hw (v : Byte) (k : Nat) : ∀ m ∈ writeBits v k, goesOn m = true := fun m hm =>
    goesOn_of_bitLevel (List.all_eq_true.1 (writeBits_levels v k) m hm)
  simp only [requestOpening, addressBits, List.forall_mem_append, List.forall_mem_cons]
  exact ⟨⟨rfl, hs⟩, hw _ _, hw _ _⟩

theorem requestProcedure_opening (a : Byte) (n : Nat) {j : Nat} (hj : j < 48) :
    requestProcedure a n j = (requestOpening a n)[j]? := by
  rw [requestProcedure_head a n j (by omega), requestHead_eq,
    List.getElem?_append_left (by simpa using hj)]

/-- 42_framing.md R144: REQUEST_FROM's WaitAck stands at position 48. -/
theorem requestProcedure_waitAck (a : Byte) (n : Nat) :
    ReadBitAt (procedureOf (.requestFrom a n)) 48 .againUnlessAck := by
  intro d hd
  refine (requestProcedure_head a n (48 + d) (by omega)).trans ?_
  rw [requestHead_eq, List.getElem?_append_right (by simp)]
  simp [waitAck]

/-- What an accepted REQUEST_FROM has done when its WaitAck begins. -/
def afterRequestOpening (a : Byte) (n : Nat) (s : State) : State :=
  { s with
    hasUnread := true, rdCursor := 0#8, expLen := BitVec.ofNat 8 n, rxbuf := Memory.zeroed
    engState := .busy, upc := 48, sclO := false, sdaO := true
    trace := (evStart ++ evByte (wireByte a true)).reverse ++ s.trace }

theorem runSteps_requestOpening (a : Byte) (n : Nat) (s : State) :
    runSteps (requestOpening a n) (startCommand s) = .next (afterRequestOpening a n s) := by
  rw [requestOpening, List.cons_append, runSteps_cons rfl, runSteps_append (runSteps_start _),
    runSteps_addressBits]
  simp [afterRequestOpening, openReadTransaction, lengthReg, advance]

theorem execRun_requestOpening {a : Byte} {n : Nat} {s : State} (hs : s.engState = .idle)
    (hi : s.init = true) (hn : n ≤ 248) :
    execRun (.requestFrom a n) 49 s = .next (afterRequestOpening a n s) := by
  have hstart : execRun (.requestFrom a n) 1 s = .next (startCommand s) :=
    execRun_succ (exec_idle_start hs (requestCheck_eq_none.2 ⟨hi, hn⟩))
  obtain ⟨hrun, -, -⟩ := execRun_eq_runSteps (i := .requestFrom a n) rfl
    (fun j hj => by
      rw [startCommand_upc, Nat.zero_add]
      exact requestProcedure_opening a n (by simpa using hj))
    (requestOpening_goesOn a n) (runSteps_requestOpening a n s)
  rw [length_requestOpening] at hrun
  rw [show 49 = 1 + 48 from rfl, execRun_add hstart, hrun]

/-- REQUEST_FROM behind its byte loop: Stop and the response (R169). -/
theorem execRun_requestTail {a : Byte} {n : Nat} {s : State} (hb : s.engState = .busy)
    (hu : s.upc = 56 + 70 * n) :
    execRun (.requestFrom a n) 8 s = .next { s with
      sclO := true, sdaO := true, trace := evStop.reverse ++ s.trace
      rspData := 0x00#8, responses := 0x00#8 :: s.responses, engState := .idle, upc := 0 } := by
  refine execRun_of_runSteps (ms := requestTail) hb (fun j _ => ?_) rfl ?_
  · rw [hu]; exact requestProcedure_tail a n j
  · rw [requestTail, runSteps_append (runSteps_stop s)]; rfl

/-- What a REQUEST_FROM that receives `bytes` leaves behind with its response, with `k` samples of 1
before the acknowledge (R169). -/
def afterRequestFrom (a : Byte) (k : Nat) (bytes : List Byte) (rest : List Level) (s : State) :
    State :=
  { s with
    rxbuf := Memory.zeroed.writeFrom 0 bytes, hasUnread := true, rdCursor := 0#8
    expLen := BitVec.ofNat 8 bytes.length, sclO := true, sdaO := true, sdaOe := true
    b := (bytes.map (·.getLsbD 0)).getLastD false, acc := bytes.getLastD s.acc
    env := { s.env with sda := rest }, trace := (evRequestFrom a k bytes).reverse ++ s.trace
    rspData := 0x00#8, responses := 0x00#8 :: s.responses, engState := .idle, upc := 0 }

/-- 43_bus_commands.md R169: an acknowledged REQUEST_FROM runs to its response. -/
theorem execRun_requestFrom {s : State} {a : Byte} {k : Nat} {bytes : List Byte}
    {rest : List Level} (hs : s.engState = .idle) (hi : s.init = true) (hn : bytes.length ≤ 248)
    (h : s.env.sda = readLevels k bytes ++ rest) :
    execRun (.requestFrom a bytes.length) (65 + 8 * k + 70 * bytes.length) s
      = .next (afterRequestFrom a k bytes rest s) := by
  have hack := execRun_waitAck (s := afterRequestOpening a bytes.length s) (k := k)
    (rest := bytes.flatMap bitsOf ++ rest) rfl (requestProcedure_waitAck a bytes.length)
    (h.trans (by simp [readLevels]))
  have hbytes := execRun_requestBytes (a := a) (n := bytes.length) (i := 0) (vs := bytes)
    (rest := rest) (s := {
      afterReadBits (List.replicate k true ++ [false]) (bytes.flatMap bitsOf ++ rest)
        (afterRequestOpening a bytes.length s) with upc := 56 })
    rfl rfl (Nat.zero_add _) hn rfl rfl rfl
  rw [show 65 + 8 * k + 70 * bytes.length = 49 + (8 * (k + 1) + (70 * bytes.length + 8)) by omega,
    execRun_add (execRun_requestOpening hs hi hn), execRun_add hack]
  refine (execRun_add hbytes).trans ((execRun_requestTail rfl rfl).trans ?_)
  simp [afterBytes, afterReadBits, afterRequestOpening, afterRequestFrom, evRequestFrom, evAck]

/-! ### READs -/

/-- 44_receive_buffer.md R192: a READ with a byte left runs to its response. -/
theorem execRun_read {s : State} (hs : s.engState = .idle) (hc : s.rdCursor < s.expLen)
    (hl : s.expLen.toNat ≤ 248) :
    execRun .read 2 s = .next (readLine (s.rxbuf.read s.rdCursor.toNat) (startCommand s)) := by
  have hlt : s.rdCursor.toNat < 248 := Nat.lt_of_lt_of_le hc hl
  have hstart : exec .read s = .next (startCommand s) :=
    exec_idle_start hs (readCheck_eq_none.2 hc)
  have hread : exec .read (startCommand s)
      = .next (readLine (s.rxbuf.read s.rdCursor.toNat) (startCommand s)) :=
    exec_effect rfl rfl (.read hlt)
  rw [execRun_succ hstart, execRun_succ hread, execRun_zero]

/-- 44_receive_buffer.md R192: `k` READs respond with the next `k` bytes of the buffer in order. -/
theorem readTimes_next {k : Nat} {s : State} (hs : s.engState = .idle)
    (hk : s.rdCursor.toNat + k ≤ s.expLen.toNat) (hl : s.expLen.toNat ≤ 248) :
    ∃ t, readTimes k s = .next t ∧ t.engState = .idle
      ∧ t.rdCursor.toNat = s.rdCursor.toNat + k ∧ t.expLen = s.expLen
      ∧ t.responses
        = ((List.range' s.rdCursor.toNat k).map s.rxbuf.read).reverse ++ s.responses := by
  induction k generalizing s with
  | zero => exact ⟨s, rfl, hs, rfl, rfl, rfl⟩
  | succ k ih =>
    have hc : s.rdCursor < s.expLen := by rw [BitVec.lt_def]; omega
    have hsucc : (s.rdCursor + 1#8).toNat = s.rdCursor.toNat + 1 := by
      rw [BitVec.toNat_add_of_lt] <;> simp; omega
    obtain ⟨t, ht, hi, hcur, hlen, hrsp⟩ := ih
      (s := readLine (s.rxbuf.read s.rdCursor.toNat) (startCommand s)) rfl
      (by simp [hsucc]; omega) hl
    refine ⟨t, by rw [readTimes, execRun_read hs hc hl]; exact ht, hi, ?_, hlen, ?_⟩
    · rw [hcur, readLine_rdCursor, startCommand_rdCursor, hsucc]; omega
    · rw [hrsp]; simp [hsucc, List.range'_succ]

/-- Settles O52: REQUEST_FROM leaves the bytes sent at the indices from 0 on, with the cursor at 0,
and the READs respond with them in this order. -/
theorem receivedBytesAreReadInOrder : Obligations.ReceivedBytesAreReadInOrder := by
  intro s a k bytes rest hs hi hn h
  obtain ⟨u, hu, -, -, -, hrsp⟩ := readTimes_next (k := bytes.length)
    (s := afterRequestFrom a k bytes rest s) rfl
    (by simp [afterRequestFrom]; omega) (by simp [afterRequestFrom]; omega)
  have hread : (List.range' 0 bytes.length).map (Memory.zeroed.writeFrom 0 bytes).read = bytes := by
    refine List.ext_getElem (by simp) fun j _ hj => ?_
    simp [Memory.read_received hn, hj]
  exact ⟨_, u, execRun_requestFrom hs hi hn h, hu, hread ▸ hrsp⟩

end Sys2Proof.Machine
end

section
/-! The encoding (30_encoding.md): the decoder is the inverse of the encoder, and the rows of the
opcode map, the reserved encodings and the legal words follow from that. -/

namespace Sys2Proof

/-! ### The fields of a word -/

/-- 30_encoding.md R80: a CMD32 word is one whose reserved fields are 0, given by its other
fields. -/
theorem eq_cmd32_iff {w : Word} {b a : Byte} {op : BitVec 4} :
    w = cmd32 b a op ↔
      resHiField w = 0#8 ∧ resLoField w = 0#4 ∧ opField w = op ∧ aField w = a ∧ bField w = b := by
  constructor
  · rintro rfl
    simp
  · rintro ⟨hhi, hlo, rfl, rfl, rfl⟩
    exact (cmd32_fields hhi hlo).symm

/-! ### Decoding and encoding are inverse -/

theorem ifUnusedZero_eq_ok_iff {u : Bool} {i j : Instr} :
    ifUnusedZero u i = .ok j ↔ u = true ∧ i = j := by
  cases u <;> simp [ifUnusedZero]

theorem wellFormed_requestFrom_iff {a : Byte} {n : Nat} :
    (Instr.requestFrom a n).WellFormed ↔ n < 256 := decide_eq_true_iff

/-- 30_encoding.md R82: a length that fits field B is read back from it. -/
theorem decode_encode {i : Instr} (h : i.WellFormed) : decode (encode i) = .ok i := by
  cases i with
  | requestFrom a n =>
    simp [encode, decode, Nat.mod_eq_of_lt (wellFormed_requestFrom_iff.1 h)]
  | _ => simp [encode, decode, ifUnusedZero]

theorem wellFormed_and_encode_of_decode {w : Word} {i : Instr} (h : decode w = .ok i) :
    i.WellFormed ∧ encode i = w := by
  unfold decode at h
  split_ifs at h with hhi hlo
  have hw {b a : Byte} {op : BitVec 4} (hop : (opField w).toNat = op.toNat) (ha : aField w = a)
      (hb : bField w = b) : cmd32 b a op = w :=
    (eq_cmd32_iff.2 ⟨not_not.1 hhi, not_not.1 hlo, BitVec.eq_of_toNat_eq hop, ha, hb⟩).symm
  split at h
  case h_1 hop | h_4 hop | h_6 hop | h_7 hop =>
    obtain ⟨hz, rfl⟩ := ifUnusedZero_eq_ok_iff.1 h
    obtain ⟨ha, hb⟩ := of_decide_eq_true hz
    exact ⟨rfl, hw hop ha hb⟩
  case h_2 hop | h_3 hop =>
    obtain ⟨hb, rfl⟩ := ifUnusedZero_eq_ok_iff.1 h
    exact ⟨rfl, hw hop rfl (of_decide_eq_true hb)⟩
  case h_5 hop =>
    cases h
    exact ⟨wellFormed_requestFrom_iff.2 (bField w).isLt, hw hop rfl (by simp)⟩
  case h_8 => cases h

/-- 30_encoding.md R88: the legal words are the encodings of the well-formed commands. -/
theorem decode_eq_ok_iff {w : Word} {i : Instr} :
    decode w = .ok i ↔ i.WellFormed ∧ encode i = w := by
  refine ⟨wellFormed_and_encode_of_decode, ?_⟩
  rintro ⟨h, rfl⟩
  exact decode_encode h

/-- Settles O1: the encodings as they stand in the format, and both directions of the inverse. -/
theorem decodeInvertsEncode : Obligations.DecodeInvertsEncode :=
  ⟨rfl, fun _ => rfl, fun _ => rfl, rfl, fun _ _ => rfl, rfl, rfl, fun _ => decode_encode,
    fun _ _ => wellFormed_and_encode_of_decode, rfl⟩

/-! ### Illegal words -/

theorem exists_error_iff {w : Word} : (∃ e, decode w = .error e) ↔ ∀ i, decode w ≠ .ok i := by
  cases decode w <;> simp

/-- The opcode of a command (30_encoding.md R84). -/
def opcode : Instr → BitVec 4
  | .begin => 1#4
  | .beginTx _ => 2#4
  | .write _ => 3#4
  | .endTx => 4#4
  | .requestFrom _ _ => 5#4
  | .available => 6#4
  | .read => 7#4

open Laws.EncodeRow (operandA operandB mask pattern)

/-- The encoding in the CMD32 format, for all commands at once. -/
theorem encode_eq_cmd32 (i : Instr) : encode i = cmd32 (operandB i) (operandA i) (opcode i) := by
  cases i <;> rfl

/-- A word is illegal when its fields are those of no command's encoding. -/
theorem illegal_of_fields {w : Word}
    (h : ∀ i, resHiField w = 0#8 → resLoField w = 0#4 → opField w = opcode i →
      aField w = operandA i → bField w = operandB i → False) : ∃ e, decode w = .error e := by
  refine exists_error_iff.2 fun i hi => ?_
  have hw : w = cmd32 (operandB i) (operandA i) (opcode i) :=
    (decode_eq_ok_iff.1 hi).2.symm.trans (encode_eq_cmd32 i)
  obtain ⟨hhi, hlo, hop, ha, hb⟩ := eq_cmd32_iff.1 hw
  exact h i hhi hlo hop ha hb

/-- Settles O3: an encoding has its reserved fields 0, one of the opcodes 1 to 7, and 0 in the
operand fields its command does not use. -/
theorem reservedEncodingsAreIllegal : Obligations.ReservedEncodingsAreIllegal := by
  intro w
  change (resHiField w ≠ _ ∨ resLoField w ≠ _ → _) ∧ (opField w = _ ∨ _ ≤ opField w → _)
    ∧ (opField w = _ ∨ opField w = _ ∨ opField w = _ ∨ opField w = _ →
        aField w ≠ _ ∨ bField w ≠ _ → _)
    ∧ (opField w = _ ∨ opField w = _ → bField w ≠ _ → _)
  refine ⟨fun h => illegal_of_fields fun i hhi hlo _ _ _ => ?_,
    fun h => illegal_of_fields fun i _ _ hop _ _ => ?_,
    fun h hne => illegal_of_fields fun i _ _ hop ha hb => ?_,
    fun h hne => illegal_of_fields fun i _ _ hop _ hb => ?_⟩
  · exact h.elim (absurd hhi) (absurd hlo)
  · rw [hop] at h
    cases i <;> simp [opcode] at h
  · rw [hop] at h
    rw [ha, hb] at hne
    cases i <;> simp [opcode, operandA, operandB] at h hne
  · rw [hop] at h
    rw [hb] at hne
    cases i <;> simp [opcode, operandB] at h hne

/-- Settles O4: the ten words, each decoded. -/
theorem writtenWordsDecode : Obligations.WrittenWordsDecode := by
  unfold Obligations.WrittenWordsDecode
  decide

/-! ### The rows of the opcode map -/

/-- The command of `i`'s row with the operands of the word `w` (30_encoding.md R81, R82, R84). -/
def withOperandsOf (w : Word) : Instr → Instr
  | .begin => .begin
  | .beginTx _ => .beginTx (aField w)
  | .write _ => .write (aField w)
  | .endTx => .endTx
  | .requestFrom _ _ => .requestFrom (aField w) (bField w).toNat
  | .available => .available
  | .read => .read

theorem wellFormed_withOperandsOf (w : Word) (i : Instr) : (withOperandsOf w i).WellFormed := by
  cases i with
  | requestFrom a n => exact wellFormed_requestFrom_iff.2 (bField w).isLt
  | _ => rfl

theorem pattern_eq_cmd32 (i : Instr) : pattern i = cmd32 0#8 0#8 (opcode i) := by
  cases i <;> (dsimp only [pattern, opcode]; decide)

/-- 30_encoding.md R84: a word that matches a row is the encoding of the row's command with the
word's operands. -/
theorem matches_row_iff_encode (w : Word) (i : Instr) :
    w &&& mask i = pattern i ↔ encode (withOperandsOf w i) = w := by
  have and_ff (x : Byte) : x &&& 0xFF#8 = x := BitVec.and_allOnes
  have and_f (x : BitVec 4) : x &&& 0xF#4 = x := BitVec.and_allOnes
  rw [eq_comm (b := w), encode_eq_cmd32, pattern_eq_cmd32, eq_cmd32_iff, eq_cmd32_iff]
  cases i <;>
    simp [mask, withOperandsOf, opcode, operandA, operandB, opField, resLoField, aField, bField,
      resHiField, BitVec.extractLsb'_and, and_ff, and_f, -BitVec.extractLsb'_toNat]

/-- 30_encoding.md R84: a word matches a row iff it decodes to the row's command. -/
theorem matches_row_iff_decode (w : Word) (i : Instr) :
    w &&& mask i = pattern i ↔ decode w = .ok (withOperandsOf w i) := by
  rw [matches_row_iff_encode, decode_eq_ok_iff, and_iff_right (wellFormed_withOperandsOf w i)]

/-- 30_encoding.md R84, R88: an encoding matches its command's row. -/
theorem encode_matches_row : ∀ i, encode i &&& mask i = pattern i
  | .begin => Laws.EncodeRow.begin.1
  | .beginTx a => (Laws.EncodeRow.beginTx a).1
  | .write d => (Laws.EncodeRow.write d).1
  | .endTx => Laws.EncodeRow.endTx.1
  | .requestFrom a n => (Laws.EncodeRow.requestFrom a n).1
  | .available => Laws.EncodeRow.available.1
  | .read => Laws.EncodeRow.read.1

/-- 30_encoding.md R85: decoding is ILLEGAL exactly when no row matches. -/
theorem illegal_iff_no_row {w : Word} :
    (∃ e, decode w = .error e) ↔ ∀ i, w &&& mask i ≠ pattern i := by
  rw [exists_error_iff]
  exact ⟨fun h i hi => h _ ((matches_row_iff_decode w i).1 hi),
    fun h i hi => h i ((decode_eq_ok_iff.1 hi).2 ▸ encode_matches_row i)⟩

/-- Settles O2: the seven rows, and for ILLEGAL the rows of all commands. -/
theorem decodeFollowsOpcodeRows : Obligations.DecodeFollowsOpcodeRows := by
  intro w
  refine ⟨matches_row_iff_decode w .begin, matches_row_iff_decode w (.beginTx 0),
    matches_row_iff_decode w (.write 0), matches_row_iff_decode w .endTx,
    matches_row_iff_decode w (.requestFrom 0 0), matches_row_iff_decode w .available,
    matches_row_iff_decode w .read, illegal_iff_no_row.trans ⟨fun h => ?_, ?_⟩⟩
  · exact ⟨h .begin, h (.beginTx 0), h (.write 0), h .endTx, h (.requestFrom 0 0), h .available,
      h .read⟩
  · rintro ⟨h1, h2, h3, h4, h5, h6, h7⟩ i
    exact match i with
    | .begin => h1
    | .beginTx _ => h2
    | .write _ => h3
    | .endTx => h4
    | .requestFrom _ _ => h5
    | .available => h6
    | .read => h7

end Sys2Proof

namespace Sys2Proof.Machine

/-! ### Bit 7 of an address -/

/-- 41_bit_transport.md R120: WriteBits of `n` bits reads the bits below `n` alone. -/
theorem writeBits_congr {u v : Byte} {n : Nat} (h : ∀ k < n, bitOf u k = bitOf v k) :
    writeBits u n = writeBits v n := by
  induction n with
  | zero => rfl
  | succ n ih => rw [writeBits, writeBits, h n (by omega), ih fun k hk => h k (by omega)]

theorem bitOf_xor_bitSeven (a : Byte) {k : Nat} (hk : k < 7) :
    bitOf (a ^^^ 0x80#8) k = bitOf a k := by
  unfold bitOf
  rw [BitVec.getLsbD_xor]
  interval_cases k <;> simp

/-- 42_framing.md R146: the address phase does not send `a[7]`. -/
theorem addressPhase_xor_bitSeven (a : Byte) (dir : Level) :
    addressPhase (a ^^^ 0x80#8) dir = addressPhase a dir := by
  rw [addressPhase_eq, addressPhase_eq, addressBits, addressBits,
    writeBits_congr fun k hk => bitOf_xor_bitSeven a hk]

theorem procedureOf_beginTx_xor_bitSeven (a : Byte) :
    procedureOf (.beginTx (a ^^^ 0x80#8)) = procedureOf (.beginTx a) := by
  funext p
  simp only [procedureOf, beginTxProcedure, addressPhase_xor_bitSeven]

theorem procedureOf_requestFrom_xor_bitSeven (a : Byte) (n : Nat) :
    procedureOf (.requestFrom (a ^^^ 0x80#8) n) = procedureOf (.requestFrom a n) := by
  funext p
  simp only [procedureOf, requestProcedure, requestHead, addressPhase_xor_bitSeven]

/-- Settles O5: the address reaches a step through the address phase of the procedure alone. -/
theorem addressBitSevenIsIgnored : Obligations.AddressBitSevenIsIgnored := by
  intro a n s
  constructor
  · rw [exec_eq, exec_eq, procedureOf_beginTx_xor_bitSeven]; rfl
  · rw [exec_eq, exec_eq, procedureOf_requestFrom_xor_bitSeven]; rfl

end Sys2Proof.Machine
end

section
/-! Line control (40_line_control.md): the six bus actions, and that no other step but a reset
writes the pin latches. -/

namespace Sys2Proof.Machine

/-! ### The bus actions (R101 to R106) -/

theorem busAction_setSclDir (d : Dir) (s : State) :
    busAction (.setSclDir d) s = { s with sclOe := d.drives, trace := .sclDir d :: s.trace } := rfl

/-- Settles O25: the equation of each bus action; a release of the data line goes by the value of
P_SDA_LATCH. -/
theorem busActionsWriteTheirLatches : Obligations.BusActionsWriteTheirLatches := by
  intro s
  refine ⟨fun l => busAction_setScl l s, fun l => busAction_setSda l s, busAction_setSclDir .out s,
    busAction_setSclDir .input s, busAction_setSdaDir_out s, fun hp => ?_, fun hp => ?_,
    fun d => busAction_wait d s⟩
  · rw [busAction_setSdaDir_input, if_neg (by simp [hp])]
  · rw [busAction_setSdaDir_input, if_pos hp]

/-- R106, log entry 4: the plan gives the level while it lasts. -/
theorem busAction_sample_planned {s : State} {l : Level} {rest : List Level}
    (h : s.env.sda = l :: rest) :
    busAction .sample s = { s with
      b := l, trace := .sample l :: s.trace, env := { s.env with sda := rest } } := by
  simp [sdaIn, Env.afterSample, h]

/-- R106, log entry 4: after the plan's end the level is a free value. -/
theorem busAction_sample_free {s : State} (h : s.env.sda = []) :
    busAction .sample s = { s with
      b := Config.sdaLevel s.env.draws
      trace := .sample (Config.sdaLevel s.env.draws) :: s.trace
      env := { s.env with draws := s.env.draws + 1 } } := by
  simp [sdaIn, Env.afterSample, h]

/-- Settles O26: the plan of levels goes on or is at its end. -/
theorem sampleTakesTheEnvironmentsLevel : Obligations.SampleTakesTheEnvironmentsLevel :=
  fun _ => ⟨fun _ _ h => busAction_sample_planned h, fun h => busAction_sample_free h⟩

/-! ### The writers of the pin latches (R111) -/

/-- The input `rst` goes on alike before and behind a bus action. -/
theorem busAction_rstNext (a : Action) (s : State) :
    busAction a (rstNext s) = rstNext (busAction a s) := by
  cases a with
  | sample =>
    cases h : s.env.sda with
    | nil => rw [busAction_sample_free h, busAction_sample_free (s := rstNext s) h]; rfl
    | cons l rest =>
      rw [busAction_sample_planned h, busAction_sample_planned (s := rstNext s) h]; rfl
  | setScl | setSda | setSclDir | setSdaDir | wait => rfl

theorem samePins_afterAction (k : After) (s : State) : SamePins s (afterAction k s) := by
  rw [afterAction_frame]; exact ⟨rfl, rfl, rfl, rfl, rfl⟩

/-- A micro-step writes the pin latches and the trace as its bus action does, or not at all. -/
theorem Effect.pins {m : MicroStep} {s t : State} (h : Effect s m t) :
    SamePins s t ∨ ∃ a, SamePins (busAction a s) t := by
  cases h with
  | bus a k => exact .inr ⟨a, samePins_afterAction k _⟩
  | openRead | storeByte | setInit | respond | drained | unread | read =>
    exact .inl ⟨rfl, rfl, rfl, rfl, rfl⟩

/-- Settles O22: by the kinds of a step; a micro-step starts from the state in which `rst` has gone
on, which has the pins and the trace of the state before it. -/
theorem pinsChangeOnlyWithABusAction : Obligations.PinsChangeOnlyWithABusAction := by
  intro s t h
  obtain ⟨hr, rfl⟩ | ⟨hr, -, ht⟩ | ⟨hr, hs, i, m, -, -, he⟩ := step_kinds h
  · exact ⟨by simp [hr], fun _ => ⟨rfl, rfl, rfl, rfl, rfl⟩⟩
  · refine ⟨fun _ => .inl ?_, by simp [hr]⟩
    rw [ht]; exact ⟨rfl, rfl, rfl, rfl, rfl⟩
  · refine ⟨fun _ => ?_, by simp [hr]⟩
    obtain hp | ⟨a, hp⟩ := he.pins
    · exact .inl { hp with }
    · rw [busAction_rstNext] at hp
      exact .inr ⟨hs, a, { hp with }⟩

end Sys2Proof.Machine
end

section
/-! Bit transport (41_bit_transport.md): what a reader of the trace sees of WriteBits and ReadBit,
and the bits of a byte put together again. -/

namespace Sys2Proof.Machine

/-! ### The bits of a byte (R125) -/

theorem assemble_concat (bs : List Level) (b : Level) :
    assemble (bs ++ [b]) = 2 * assemble bs + b.toNat := by simp [assemble]

/-- The first bit has the highest weight. -/
theorem assemble_cons (b : Level) (bs : List Level) :
    assemble (b :: bs) = b.toNat * 2 ^ bs.length + assemble bs := by
  induction bs using List.reverseRecOn with
  | nil => simp [assemble]
  | append_singleton bs c ih =>
    rw [← List.cons_append, assemble_concat, ih, assemble_concat, List.length_append,
      List.length_singleton, Nat.pow_succ]
    ring

@[simp] theorem length_lowBits (v : Byte) (n : Nat) : (lowBits v n).length = n := by simp [lowBits]

theorem bitsOf_eq_lowBits (v : Byte) : bitsOf v = lowBits v 8 := rfl

/-- The low bits assemble to the value they are cut from: bit `n` brings its `2 ^ n`. -/
theorem assemble_lowBits (v : Byte) (n : Nat) : assemble (lowBits v n) = v.toNat % 2 ^ n := by
  induction n with
  | zero => simp [lowBits, assemble, Nat.mod_one]
  | succ n ih =>
    have hbit : (v.getLsbD n).toNat = v.toNat / 2 ^ n % 2 := Nat.toNat_testBit v.toNat n
    rw [lowBits_succ, assemble_cons, length_lowBits, ih, hbit, Nat.mod_pow_succ]
    ring

theorem assemble_bitsOf (v : Byte) : assemble (bitsOf v) = v.toNat := by
  rw [bitsOf_eq_lowBits, assemble_lowBits, Nat.mod_eq_of_lt v.isLt]

/-! ### The bit cycles in the trace (R120, R121) -/

/-- Whatever the lines were, a bit cycle has one rising clock edge, with its bit on the line. -/
theorem risingEdgeData_evBit_append (l : Lines) (b : Level) (es : List Event) :
    risingEdgeData l (evBit b ++ es) = b :: risingEdgeData ⟨false, b⟩ es := by
  simp [evBit, risingEdgeData, Lines.after]

theorem risingEdgeData_bitCycles (l : Lines) (bs : List Level) :
    risingEdgeData l (bs.flatMap evBit) = bs := by
  induction bs generalizing l with
  | nil => rfl
  | cons b bs ih => rw [List.flatMap_cons, risingEdgeData_evBit_append, ih]

theorem length_bitCycles (bs : List Level) : (bs.flatMap evBit).length = 5 * bs.length := by
  simp [List.length_flatMap, evBit, Nat.mul_comm]

/-- One wait of `T_HOLD` per bit cycle. -/
theorem length_holds_bitCycles (bs : List Level) :
    ((bs.flatMap evBit).filter fun e => e == .wait .tHold).length = bs.length := by
  have hone (b : Level) : ((evBit b).filter fun e => e == .wait .tHold) = [.wait .tHold] := by
    simp [evBit]
  simp [List.filter_flatMap, hone]

/-- Settles O28: the serializer's next state, and a rising edge and a hold per bit cycle. -/
theorem writeBitsSendsMsbFirst : Obligations.WriteBitsSendsMsbFirst := by
  intro v n s hn _
  obtain ⟨m, rfl⟩ := Nat.exists_eq_add_of_le' hn
  refine ⟨(lowBits v (m + 1)).flatMap evBit, rfl, ?_, ?_, ?_, runSteps_writeBits v m s⟩
  · rw [length_bitCycles, length_lowBits]
  · rw [length_holds_bitCycles, length_lowBits]
  · exact risingEdgeData_bitCycles _ _

/-- Settles O29: the decoder reads the bits that were sent, and these assemble to the value. -/
theorem serializerRoundTrip : Obligations.SerializerRoundTrip := by
  intro v n s t hn _ h
  obtain ⟨m, rfl⟩ := Nat.exists_eq_add_of_le' hn
  rw [runSteps_writeBits] at h
  cases h
  refine ⟨(lowBits v (m + 1)).flatMap evBit, rfl, ?_, rfl⟩
  rw [risingEdgeData_bitCycles, assemble_lowBits]

/-! ### The ReadBits in the trace (R122 to R124) -/

/-- Settles O30: the deserializer's next state with nothing behind the ReadBit. -/
theorem readBitSamplesAfterTheHold : Obligations.ReadBitSamplesAfterTheHold :=
  fun _ _ _ h => runSteps_readBit .nothing h

/-- Whatever the lines were, a ReadBit has one rising clock edge and keeps the data level. -/
theorem risingEdgeData_evReadBit_append (l : Lines) (b : Level) (es : List Event) :
    risingEdgeData l (evReadBit b ++ es) = l.sda :: risingEdgeData ⟨false, l.sda⟩ es := by
  simp [evReadBit, risingEdgeData, Lines.after]

theorem length_risingEdgeData_readBits (l : Lines) (bs : List Level) :
    (risingEdgeData l (bs.flatMap evReadBit)).length = bs.length := by
  induction bs generalizing l with
  | nil => rfl
  | cons b bs ih =>
    rw [List.flatMap_cons, risingEdgeData_evReadBit_append, List.length_cons, ih, List.length_cons]

theorem length_evReadByte (v : Byte) : (evReadByte v).length = 64 := rfl

/-- Settles O31: the deserializer's next state, a rising edge per ReadBit, the bits' byte. -/
theorem readByteAssemblesMsbFirst : Obligations.ReadByteAssemblesMsbFirst := by
  intro s v rest h
  have hedges : (risingEdgeData s.lines (evReadByte v)).length = 8 :=
    length_risingEdgeData_readBits s.lines (bitsOf v)
  exact ⟨_, runSteps_readByte h, rfl, rfl, rfl, length_evReadByte v, hedges,
    (assemble_bitsOf v).symm, rfl, ⟨fun _ => rfl, rfl, rfl, rfl⟩⟩

end Sys2Proof.Machine
end

section
/-! Transaction framing (42_framing.md): the conditions Start and Stop make on the wire, WaitAck at
its positions, and END_TX behind a WRITE. -/

namespace Sys2Proof.Machine

/-! ### Start, Stop and the master ack bit (R140, R142, R147) -/

/-- Settles O32: the next states of the start and the stop sequence. -/
theorem startAndStopSequences : Obligations.StartAndStopSequences :=
  fun s => ⟨runSteps_start s, runSteps_stop s⟩

/-- Settles O39: the master ack bit is one bit cycle of `i + 1 = n`. -/
theorem masterAckBitPolarity : Obligations.MasterAckBitPolarity :=
  fun _ _ s hi => runSteps_masterAckBit hi s

/-! ### Conditions on the wire (R141, R143) -/

/-- The raise of data that opens Start makes no stop condition: the clock is low or data is high
already. Its later fall, with the clock high, is the start condition. -/
theorem conditions_evStart {l : Lines} (h : l.scl = false ∨ (l.scl = true ∧ l.sda = true)) :
    startConditions l evStart = 1 ∧ stopConditions l evStart = 0 := by
  rcases h with hscl | ⟨hscl, hsda⟩
  · simp [startConditions, stopConditions, evStart, Lines.after, hscl]
  · simp [startConditions, stopConditions, evStart, Lines.after, hscl, hsda]

/-- Stop raises data once, with the clock high: an edge when data was low. It never lowers data. -/
theorem stopConditions_evStop (l : Lines) :
    stopConditions l evStop = if l.sda = false then 1 else 0 := by
  simp [stopConditions, evStop, Lines.after]

theorem startConditions_evStop (l : Lines) : startConditions l evStop = 0 := by
  simp [startConditions, evStop, Lines.after]

/-- Settles O33: the events Start adds are `evStart`. -/
theorem startMakesOneStartCondition : Obligations.StartMakesOneStartCondition := by
  intro s t hl h
  rw [runSteps_start] at h
  cases h
  exact ⟨evStart, rfl, conditions_evStart hl⟩

/-- Settles O34: the events Stop adds are `evStop`. -/
theorem stopConditionIffDataLow : Obligations.StopConditionIffDataLow := by
  intro s t h
  rw [runSteps_stop] at h
  cases h
  exact ⟨rfl, rfl, evStop, rfl, stopConditions_evStop s.lines, startConditions_evStop s.lines⟩

/-! ### The address phase (R146) -/

/-- Settles O38: the micro-steps before WaitAck are the address bits. -/
theorem addressPhaseSendsTheWireByte : Obligations.AddressPhaseSendsTheWireByte :=
  fun a dir s => ⟨addressBits a dir, addressPhase_eq a dir, runSteps_addressBits a dir s,
    getLsbD_wireByte a dir⟩

/-! ### WaitAck (R144, R145) -/

/-- A WaitAck inside a list of micro-steps stands behind the ones before it. -/
theorem readBitAt_waitAck (ms ns : List MicroStep) :
    ReadBitAt (fun p => (ms ++ waitAck ++ ns)[p]?) ms.length .againUnlessAck := by
  intro d hd
  show (ms ++ waitAck ++ ns)[ms.length + d]? = waitAck[d]?
  rw [List.append_assoc, List.getElem?_append_right (Nat.le_add_right _ _), Nat.add_sub_cancel_left,
    List.getElem?_append_left hd]

theorem beginTxProcedure_waitAck (a : Byte) :
    ReadBitAt (procedureOf (.beginTx a)) 47 .againUnlessAck := by
  have h := readBitAt_waitAck (start ++ addressBits a false) [.respond 0#8]
  rw [List.append_assoc start, ← addressPhase_eq] at h
  exact h

theorem writeProcedure_waitAck (d : Byte) :
    ReadBitAt (procedureOf (.write d)) 40 .againUnlessAck :=
  readBitAt_waitAck (writeBits d 8) [.respond 0#8]

/-- The positions of the three commands' WaitAcks. -/
theorem waitAck_positions {i : Instr} {u : Nat}
    (h : (∃ a, i = .beginTx a ∧ u = 47) ∨ (∃ d, i = .write d ∧ u = 40)
      ∨ (∃ a n, i = .requestFrom a n ∧ u = 48)) :
    ReadBitAt (procedureOf i) u .againUnlessAck := by
  rcases h with ⟨a, rfl, rfl⟩ | ⟨d, rfl, rfl⟩ | ⟨a, n, rfl, rfl⟩
  · exact beginTxProcedure_waitAck a
  · exact writeProcedure_waitAck d
  · exact requestProcedure_waitAck a n

/-- The last ReadBit of a WaitAck that ends is the acknowledge. -/
theorem afterReadBits_ack (k : Nat) (rest : List Level) (s : State) :
    afterReadBits (List.replicate k true ++ [false]) rest s = { s with
      sclO := false, sdaOe := true, sdaO := if s.sdaLatch = .clear then false else s.sdaO
      b := false, env := { s.env with sda := rest }, trace := (evAck k).reverse ++ s.trace } := by
  simp [afterReadBits, evAck]

theorem length_evAck (k : Nat) : (evAck k).length = 8 * (k + 1) := by
  simp [evAck, evReadBit, List.length_flatMap, Nat.mul_succ, Nat.mul_comm]

/-- Settles O36: each of the three positions holds a WaitAck, which ends at the first 0. -/
theorem waitAckEndsAtTheFirstLow : Obligations.WaitAckEndsAtTheFirstLow := by
  intro i s k rest hb h hp
  refine ⟨length_evAck k, ?_⟩
  rw [execRun_waitAck hb (waitAck_positions hp) h, afterReadBits_ack]

/-- Settles O37, by induction on the number of samples of 1: each brings WaitAck back to its first
position. -/
theorem unansweredAckWaitGoesOn : Obligations.UnansweredAckWaitGoesOn := by
  intro i s m rest hb h hp
  have hw := waitAck_positions hp
  clear hp
  induction m generalizing s with
  | zero => exact ⟨s, rfl, hb, rfl, rfl, rfl, h, rfl⟩
  | succ m ih =>
    obtain ⟨t, ht, hbusy, hupc, hrsp, hfault, hsda, htrace⟩ :=
      ih { afterReadBits [true] (List.replicate m true ++ rest) s with upc := s.upc } hb rfl hw
    refine ⟨t, ?_, hbusy, hupc, hrsp, hfault, hsda, ?_⟩
    · rw [Nat.mul_succ, Nat.add_comm, execRun_add (execRun_ackReadBit hb hw h)]
      exact ht
    · simp [htrace, afterReadBits, List.replicate_succ]

/-! ### WRITE and END_TX (43_bus_commands.md R165, R167) -/

/-- What an accepted WRITE has done when its WaitAck begins. -/
def afterWriteOpening (d : Byte) (s : State) : State :=
  { s with
    engState := .busy, upc := 40, sclO := false, sdaO := d.getLsbD 0
    trace := (evByte d).reverse ++ s.trace }

theorem execRun_writeOpening {s : State} (d : Byte) (hs : s.engState = .idle)
    (hi : s.init = true) : execRun (.write d) 41 s = .next (afterWriteOpening d s) := by
  have hstart : execRun (.write d) 1 s = .next (startCommand s) :=
    execRun_succ (exec_idle_start hs (initCheck_eq_none.2 hi))
  have hplace (j : Nat) (hj : j < (writeBits d 8).length) :
      procedureOf (.write d) (0 + j) = (writeBits d 8)[j]? := by
    show (writeBits d 8 ++ waitAck ++ [.respond 0#8])[0 + j]? = _
    rw [Nat.zero_add, List.append_assoc, List.getElem?_append_left hj]
  have hbits := execRun_eq_runSteps (i := .write d) (s := startCommand s) rfl hplace
    (fun m hm => goesOn_of_bitLevel (List.all_eq_true.1 (writeBits_levels d 8) m hm))
    (runSteps_writeBits d 7 _)
  exact (execRun_add (j := 1) (k := 40) hstart).trans hbits.1

/-- Behind its WaitAck, at position 48, a WRITE responds. -/
theorem exec_write_responds {s : State} {d : Byte} (hb : s.engState = .busy) (hu : s.upc = 48) :
    exec (.write d) s = .next (respond 0x00#8 s) :=
  exec_effect hb (by rw [hu]; rfl) (.respond _)

/-- 43_bus_commands.md R165: an acknowledged WRITE runs to its response. -/
theorem execRun_write {s : State} {d : Byte} {k : Nat} {rest : List Level}
    (hs : s.engState = .idle) (hi : s.init = true)
    (h : s.env.sda = List.replicate k true ++ false :: rest) :
    execRun (.write d) (50 + 8 * k) s = .next { s with
      sclO := false, sdaO := if s.sdaLatch = .clear then false else d.getLsbD 0
      sdaOe := true, b := false
      env := { s.env with sda := rest }, trace := (evWrite d k).reverse ++ s.trace
      rspData := 0x00#8, responses := 0x00#8 :: s.responses, engState := .idle, upc := 0 } := by
  have hack := execRun_waitAck (s := afterWriteOpening d s) rfl (writeProcedure_waitAck d) h
  rw [show 50 + 8 * k = 41 + (8 * (k + 1) + 1) by omega, execRun_add (execRun_writeOpening d hs hi),
    execRun_add hack, afterReadBits_ack, evWrite, List.reverse_append, List.append_assoc]
  exact execRun_succ (exec_write_responds rfl rfl)

/-- 43_bus_commands.md R167: END_TX runs the stop sequence to its response. -/
theorem execRun_endTx {s : State} (hs : s.engState = .idle) (hi : s.init = true) :
    execRun .endTx 9 s = .next { s with
      sclO := true, sdaO := true, trace := evStop.reverse ++ s.trace
      rspData := 0x00#8, responses := 0x00#8 :: s.responses, engState := .idle, upc := 0 } := by
  have hstart : exec .endTx s = .next (startCommand s) :=
    exec_idle_start hs (initCheck_eq_none.2 hi)
  rw [execRun_succ hstart]
  refine execRun_of_runSteps (ms := endTxProcedure) rfl (fun j _ => ?_) rfl ?_
  · rw [startCommand_upc, Nat.zero_add]; rfl
  · rw [endTxProcedure, runSteps_append (runSteps_stop _)]; rfl

/-- Settles O35: WRITE leaves `d[0]`, or 0 under CLEAR, on the data latch, where END_TX's Stop
finds it. -/
theorem stopAfterWriteDependsOnLastBit : Obligations.StopAfterWriteDependsOnLastBit := by
  intro s d k rest hs hi h
  refine ⟨_, _, evStop, execRun_write hs hi h, execRun_endTx rfl hi, rfl, ?_⟩
  rw [stopConditions_evStop]
  by_cases hc : s.sdaLatch = .clear
  · simp [State.lines, hc]
  · simp [State.lines, hc]

end Sys2Proof.Machine
end

section
/-! The bus commands from acceptance to response (43_bus_commands.md R161 to R172). -/

namespace Sys2Proof.Machine

/-! ### Acceptance (60_exceptions.md R212) -/

/-- A command that passes its checks starts. -/
theorem exec_accepts {i : Instr} {s : State} (hs : s.engState = .idle)
    (hc : checkOf i s = none) : exec i s = .next { s with engState := .busy, upc := 0 } :=
  exec_idle_start hs hc

/-- A bus command other than BEGIN faults while `INIT = 0`. -/
theorem exec_notInitialized {i : Instr} {s : State} (hb : isBusCommand i = true)
    (hs : s.engState = .idle) (hi : s.init = false) :
    exec i s = .next { s with
      fault := true, faultCode := 2#4, faultCmd := s.cmd, engState := .faulted } := by
  have hc : checkOf i s = some .notInitialized := by
    cases i with
    | beginTx | write | endTx => simp [checkOf, initCheck, hi]
    | requestFrom => simp [checkOf, requestCheck, hi]
    | begin | available | read => cases hb
  exact exec_idle_fault hs hc

/-- REQUEST_FROM of more than 248 bytes faults. -/
theorem exec_lengthTooLarge {a : Byte} {n : Nat} {s : State} (hs : s.engState = .idle)
    (hi : s.init = true) (hn : 248 < n) :
    exec (.requestFrom a n) s = .next { s with
      fault := true, faultCode := 3#4, faultCmd := s.cmd, engState := .faulted } := by
  have hl : ¬ lengthLegal n = true := by rw [lengthLegal_iff]; omega
  exact exec_idle_fault (c := .lengthTooLarge) hs (by simp [checkOf, requestCheck, hi, hl])

/-- An accepted command runs the micro-steps `ms` its procedure begins with. -/
theorem execRun_accepted {i : Instr} {ms : List MicroStep} {s t : State} (hs : s.engState = .idle)
    (hc : checkOf i s = none) (hp : ∀ j < ms.length, procedureOf i j = ms[j]?)
    (hg : ms.dropLast.all goesOn = true) (h : runSteps ms (startCommand s) = .next t) :
    execRun i (ms.length + 1) s = .next t := by
  rw [execRun_succ (exec_idle_start hs hc)]
  exact execRun_of_runSteps rfl (fun j hj => by rw [startCommand_upc, Nat.zero_add, hp j hj]) hg h

/-! ### The words (30_encoding.md R88) -/

/-- The word of a command with the one operand `a`, which stands in its second byte. -/
theorem cmd32_eq_append (a : Byte) (op : BitVec 4) :
    cmd32 0#8 a op = 0x0000#16 ++ a ++ (0#4 ++ op : BitVec 8) := by
  apply BitVec.eq_of_getLsbD_eq
  intro k hk
  rw [getLsbD_cmd32]
  show _ = (0x0000#16 ++ a ++ (0#4 ++ op : BitVec 8) : BitVec (16 + 8 + 8)).getLsbD k
  simp only [BitVec.getLsbD_append, BitVec.getLsbD_zero]
  grind

/-! ### BEGIN (R161, R162) -/

theorem runSteps_dummyClocks (n : Nat) {s : State} (h : s.sclO = false) :
    runSteps (dummyClocks n) s = .next { s with
      trace := ((List.replicate n
        [Event.scl true, .wait .tHold, .scl false, .wait .tHold]).flatten).reverse ++ s.trace
      upc := s.upc + 4 * n } := by
  induction n generalizing s with
  | zero => rfl
  | succ n ih =>
    have hclock : runSteps dummyClock s = .next { s with
        sclO := false
        trace := .wait .tHold :: .scl false :: .wait .tHold :: .scl true :: s.trace
        upc := s.upc + 4 } := by simp [dummyClock, act]
    rw [dummyClocks, runSteps_append hclock, ih (by rfl)]
    simp [List.replicate_succ, h, Nat.mul_succ, Nat.add_assoc, Nat.add_comm 4]

theorem runSteps_beginProcedure (s : State) :
    runSteps beginProcedure s = .next { s with
      init := true, sclO := true, sdaO := true, sclOe := true, sdaOe := true
      trace := evBegin.reverse ++ s.trace
      rspData := 0x00#8, responses := 0x00#8 :: s.responses, engState := .idle, upc := 0 } := by
  have hopen : runSteps [act (.setSclDir .out), act (.setSdaDir .out), act (.setScl false)] s
      = .next { s with
        sclOe := true, sdaOe := true, sclO := false
        trace := [.scl false, .sdaDir .out, .sclDir .out] ++ s.trace, upc := s.upc + 3 } := by
    simp [act, busAction_setSclDir, Dir.drives]
  rw [beginProcedure, List.append_assoc, List.append_assoc, runSteps_append hopen,
    runSteps_append (runSteps_dummyClocks _ rfl), runSteps_append (runSteps_stop _),
    runSteps_cons rfl, runSteps_cons rfl, runSteps_nil]
  simp [advance, respond, evBegin, evDummyClocks, Config.dummyClocks]

/-- 43_bus_commands.md R161: BEGIN runs to its response. -/
theorem execRun_begin {s : State} (hs : s.engState = .idle) :
    execRun .begin 49 s = .next { s with
      init := true, sclO := true, sdaO := true, sclOe := true, sdaOe := true
      trace := evBegin.reverse ++ s.trace
      rspData := 0x00#8, responses := 0x00#8 :: s.responses, engState := .idle, upc := 0 } :=
  execRun_accepted (ms := beginProcedure) hs rfl (fun _ _ => rfl) rfl (runSteps_beginProcedure _)

/-- BEGIN's nine dummy clocks and its Stop each raise the clock once. -/
theorem length_risingEdgeData_evBegin (l : Lines) : (risingEdgeData l evBegin).length = 10 := by
  have h : ∀ scl sda : Level, (risingEdgeData ⟨scl, sda⟩ evBegin).length = 10 := by decide
  exact h l.scl l.sda

/-- Only BEGIN's Stop writes the data latch. -/
theorem stopConditions_evBegin (l : Lines) :
    stopConditions l evBegin = if l.sda = false then 1 else 0 := by
  have h : ∀ scl sda : Level,
      stopConditions ⟨scl, sda⟩ evBegin = if sda = false then 1 else 0 := by decide
  exact h l.scl l.sda

/-- Settles O40: the run of BEGIN's procedure, and what a reader of its trace sees. -/
theorem beginCompletes : Obligations.BeginCompletes := by
  intro s hs
  exact ⟨exec_accepts hs rfl, execRun_begin hs, rfl, rfl, length_risingEdgeData_evBegin s.lines,
    stopConditions_evBegin s.lines, rfl⟩

/-! ### BEGIN_TX (R163) -/

theorem length_evByte (v : Byte) : (evByte v).length = 40 := rfl

/-- BEGIN_TX before its WaitAck: Start and the address bits. -/
def beginTxOpening (a : Byte) : List MicroStep := start ++ addressBits a false

theorem beginTxProcedure_eq (a : Byte) :
    beginTxProcedure a = beginTxOpening a ++ (waitAck ++ [.respond 0#8]) := by
  simp [beginTxProcedure, beginTxOpening, addressPhase_eq]

@[simp] theorem length_beginTxOpening (a : Byte) : (beginTxOpening a).length = 47 := by
  simp [beginTxOpening, addressBits]

theorem beginTxOpening_levels (a : Byte) : (beginTxOpening a).all bitLevel = true := by
  simp only [beginTxOpening, addressBits, List.all_append, writeBits_levels]; rfl

/-- What an accepted BEGIN_TX has done when its WaitAck begins. -/
def afterBeginTxOpening (a : Byte) (s : State) : State :=
  { s with
    engState := .busy, upc := 47, sclO := false, sdaO := false
    trace := (evStart ++ evByte (wireByte a false)).reverse ++ s.trace }

theorem runSteps_beginTxOpening (a : Byte) (s : State) :
    runSteps (beginTxOpening a) (startCommand s) = .next (afterBeginTxOpening a s) := by
  rw [beginTxOpening, runSteps_append (runSteps_start _), runSteps_addressBits]
  simp [afterBeginTxOpening, startCommand]

theorem execRun_beginTxOpening {s : State} (a : Byte) (hs : s.engState = .idle)
    (hi : s.init = true) : execRun (.beginTx a) 48 s = .next (afterBeginTxOpening a s) := by
  have hrun := execRun_accepted (i := .beginTx a) hs (initCheck_eq_none.2 hi)
    (fun j hj => by
      show (beginTxProcedure a)[j]? = _
      rw [beginTxProcedure_eq, List.getElem?_append_left hj])
    (List.all_eq_true.2 fun m hm => goesOn_of_bitLevel
      (List.all_eq_true.1 (beginTxOpening_levels a) m (List.mem_of_mem_dropLast hm)))
    (runSteps_beginTxOpening a s)
  rwa [length_beginTxOpening] at hrun

/-- Behind its WaitAck, at position 55, a BEGIN_TX responds. -/
theorem exec_beginTx_responds {s : State} {a : Byte} (hb : s.engState = .busy)
    (hu : s.upc = 55) : exec (.beginTx a) s = .next (respond 0x00#8 s) :=
  exec_effect hb (by rw [hu]; rfl) (.respond _)

/-- 43_bus_commands.md R163: an acknowledged BEGIN_TX runs to its response. -/
theorem execRun_beginTx {s : State} {a : Byte} {k : Nat} {rest : List Level}
    (hs : s.engState = .idle) (hi : s.init = true)
    (h : s.env.sda = List.replicate k true ++ false :: rest) :
    execRun (.beginTx a) (57 + 8 * k) s = .next { s with
      sclO := false, sdaO := false, sdaOe := true, b := false
      env := { s.env with sda := rest }, trace := (evBeginTx a k).reverse ++ s.trace
      rspData := 0x00#8, responses := 0x00#8 :: s.responses, engState := .idle, upc := 0 } := by
  have hack := execRun_waitAck (s := afterBeginTxOpening a s) rfl (beginTxProcedure_waitAck a) h
  rw [show 57 + 8 * k = 48 + (8 * (k + 1) + 1) by omega,
    execRun_add (execRun_beginTxOpening a hs hi), execRun_add hack, afterReadBits_ack]
  refine (execRun_succ (exec_beginTx_responds rfl rfl)).trans ?_
  simp [respond, afterBeginTxOpening, evBeginTx]

/-- Settles O41: the run of BEGIN_TX, its trace and its word. -/
theorem beginTxCompletes : Obligations.BeginTxCompletes := by
  intro s a k rest hs hi h
  refine ⟨exec_accepts hs (initCheck_eq_none.2 hi), execRun_beginTx hs hi h, ?_,
    cmd32_eq_append a 2#4, fun u => exec_notInitialized rfl⟩
  rw [evBeginTx, List.length_append, List.length_append, length_evByte, length_evAck]; rfl

/-! ### WRITE (R165) -/

/-- Settles O42: the run of WRITE, its trace and its word. -/
theorem writeCompletes : Obligations.WriteCompletes := by
  intro s d k rest hs hi h
  refine ⟨exec_accepts hs (initCheck_eq_none.2 hi), execRun_write hs hi h, ?_,
    cmd32_eq_append d 3#4, fun u => exec_notInitialized rfl⟩
  rw [evWrite, List.length_append, length_evByte, length_evAck]

/-! ### END_TX (R167, R168) -/

/-- Settles O43: the run of END_TX; from the idle levels data is high at its Stop. -/
theorem endTxCompletes : Obligations.EndTxCompletes := by
  intro s hs hi
  exact ⟨exec_accepts hs (initCheck_eq_none.2 hi), execRun_endTx hs hi, rfl,
    startConditions_evStop _, stopConditions_evStop _, rfl, fun u => exec_notInitialized rfl⟩

/-! ### REQUEST_FROM (R169 to R171) -/

theorem length_evBytes (bytes : List Byte) : (evBytes bytes).length = 69 * bytes.length := by
  induction bytes with
  | nil => rfl
  | cons v vs ih =>
    rw [evBytes_cons, List.length_append, List.length_append, length_evReadByte, ih,
      List.length_cons]
    simp [evBit]; omega

theorem length_evRequestFrom (a : Byte) (k : Nat) (bytes : List Byte) :
    (evRequestFrom a k bytes).length = 7 + 40 + 8 * (k + 1) + 69 * bytes.length + 7 := by
  simp only [evRequestFrom, List.length_append, length_evByte, length_evAck, length_evBytes]
  rfl

theorem toNat_lengthReg {n : Nat} (hn : n ≤ 248) : (BitVec.ofNat 8 n).toNat = n := by
  simp; omega

/-- Settles O44: `afterRequestFrom` is the state the run ends in, and its buffer holds the bytes. -/
theorem requestFromCompletes : Obligations.RequestFromCompletes := by
  intro s a k bytes rest hs hi hn h
  exact ⟨exec_accepts hs (requestCheck_eq_none.2 ⟨hi, hn⟩), afterRequestFrom a k bytes rest s,
    execRun_requestFrom hs hi hn h, Memory.read_received hn, rfl, rfl, toNat_lengthReg hn, rfl,
    length_evRequestFrom a k bytes, rfl, rfl, rfl, rfl, hi, ⟨rfl, rfl, rfl⟩, rfl, rfl, rfl, rfl,
    fun _ _ => exec_notInitialized rfl, fun _ _ => exec_lengthTooLarge⟩

/-- Settles O45: the second step is REQUEST_FROM's first line, which does no bus action. -/
theorem requestFromOpensBeforeTheBus : Obligations.RequestFromOpensBeforeTheBus := by
  intro s a n hs hi hn
  have hopen : exec (.requestFrom a n) (startCommand s)
      = .next (advance (openReadTransaction n (startCommand s))) :=
    exec_effect rfl (requestProcedure_opening a n (j := 0) (by decide)) (.openRead n)
  have hrun : execRun (.requestFrom a n) 2 s
      = .next (advance (openReadTransaction n (startCommand s))) :=
    (execRun_succ (exec_idle_start (i := .requestFrom a n) hs
      (requestCheck_eq_none.2 ⟨hi, hn⟩))).trans (execRun_succ hopen)
  exact ⟨_, hrun, rfl, rfl, toNat_lengthReg hn, fun _ => rfl, getLsbD_status _ 2,
    getLsbD_status _ 0, ⟨rfl, rfl, rfl, rfl, rfl⟩, rfl⟩

/-! ### The conditions REQUEST_FROM makes on the wire (R171) -/

/-- The start and the stop conditions of a trace. -/
def conditions (l : Lines) (es : List Event) : Nat × Nat :=
  (startConditions l es, stopConditions l es)

/-- A bit cycle writes data with the clock low: whatever the lines were, no condition. -/
theorem conditions_evBit_append (l : Lines) (b : Level) (es : List Event) :
    conditions l (evBit b ++ es) = conditions ⟨false, b⟩ es := by
  simp [conditions, evBit, startConditions, stopConditions, Lines.after]

/-- A ReadBit does not write data. -/
theorem conditions_evReadBit_append (l : Lines) (b : Level) (es : List Event) :
    conditions l (evReadBit b ++ es) = conditions ⟨false, l.sda⟩ es := by
  simp [conditions, evReadBit, startConditions, stopConditions, Lines.after]

theorem conditions_evByte_append (l : Lines) (v : Byte) (es : List Event) :
    conditions l (evByte v ++ es) = conditions ⟨false, v.getLsbD 0⟩ es := by
  simp [evByte, bitsOf, List.range_succ, conditions_evBit_append, -BitVec.getLsbD_eq_getElem]

theorem conditions_readBits_append (d : Level) (ls : List Level) (es : List Event) :
    conditions ⟨false, d⟩ (ls.flatMap evReadBit ++ es) = conditions ⟨false, d⟩ es := by
  induction ls with
  | nil => rfl
  | cons l ls ih => rw [List.flatMap_cons, List.append_assoc, conditions_evReadBit_append, ih]

/-- The last received byte is followed by a master ack bit of 1, which stays on the data line. -/
theorem conditions_evBytes_append {d : Level} (vs : List Byte) (es : List Event)
    (h : vs = [] → d = true) :
    conditions ⟨false, d⟩ (evBytes vs ++ es) = conditions ⟨false, true⟩ es := by
  induction vs generalizing d with
  | nil => rw [h rfl]; rfl
  | cons v vs ih =>
    rw [evBytes_cons, evReadByte, List.append_assoc, List.append_assoc, conditions_readBits_append,
      conditions_evBit_append]
    exact ih fun hv => by simp [hv]

/-- Both counts go on behind a first part, with the lines it leaves. -/
theorem conditions_append (l : Lines) (es fs : List Event) :
    conditions l (es ++ fs) = conditions l es + conditions (es.foldl Lines.after l) fs := by
  induction es generalizing l with
  | nil => simp [conditions, startConditions, stopConditions]
  | cons e es ih =>
    have h := ih (l.after e)
    simp only [conditions, Prod.mk_add_mk, Prod.mk.injEq] at h
    simp [conditions, startConditions, stopConditions, h.1, h.2, Nat.add_assoc]

/-- Behind Start nothing makes a condition: the direction bit or the last master ack bit leaves data
at 1, so that the data line has no edge in Stop. -/
theorem conditions_evRequestFrom {l : Lines} (a : Byte) (k : Nat) (bytes : List Byte)
    (h : l.scl = false ∨ (l.scl = true ∧ l.sda = true)) :
    conditions l (evRequestFrom a k bytes) = (1, 0) := by
  have hstart : conditions l evStart = (1, 0) := Prod.ext_iff.2 (conditions_evStart h)
  have hstop : conditions ⟨false, true⟩ evStop = (0, 0) := rfl
  have hdir : (wireByte a true).getLsbD 0 = true := getLsbD_wireByte a true 0
  simp only [evRequestFrom, evAck, List.append_assoc]
  rw [conditions_append, hstart, conditions_evByte_append, hdir, conditions_readBits_append,
    conditions_evReadBit_append, conditions_evBytes_append _ _ fun _ => rfl, hstop]
  rfl

/-- Settles O46: the events the run adds are `evRequestFrom`. -/
theorem requestFromMakesNoStopCondition : Obligations.RequestFromMakesNoStopCondition := by
  intro s a k bytes rest hs hi hn h _ hl
  obtain ⟨hstart, hstop⟩ := Prod.mk.inj (conditions_evRequestFrom (l := s.lines) a k bytes hl)
  exact ⟨afterRequestFrom a k bytes rest s, evRequestFrom a k bytes,
    execRun_requestFrom hs hi hn h, rfl, hstart, hstop⟩

end Sys2Proof.Machine
end

section
/-! What a command's steps leave unchanged (43_bus_commands.md R160 to R172), and the machine's runs
of a command. -/

namespace Sys2Proof.Machine

/-! ### Frames every command has -/

/-- What an acceptance writes: the engine's state and position, or the fault record. -/
theorem exec_idle_frame {i : Instr} {s t : State} (hs : s.engState = .idle)
    (h : exec i s = .next t) :
    t = { s with
      engState := t.engState, upc := t.upc, fault := t.fault, faultCode := t.faultCode
      faultCmd := t.faultCmd } := by
  rw [exec_idle hs] at h
  cases hc : checkOf i s <;> rw [hc] at h <;> cases h <;> rfl

/-- A step of a command is its acceptance, the effect of a micro-step, or nothing. -/
theorem exec_kinds {i : Instr} {s t : State} (h : exec i s = .next t) :
    (s.engState = .idle ∧ t = { s with
      engState := t.engState, upc := t.upc, fault := t.fault, faultCode := t.faultCode
      faultCmd := t.faultCmd }) ∨
    (s.engState = .busy ∧ ∃ m, procedureOf i s.upc = some m ∧ Effect s m t) ∨
    (s.engState = .faulted ∧ t = s) := by
  obtain ⟨hs, -⟩ | ⟨hs, -⟩ | ⟨hs, m, hp, hm⟩ | hf := exec_next_cases h
  · exact .inl ⟨hs, exec_idle_frame hs h⟩
  · exact .inl ⟨hs, exec_idle_frame hs h⟩
  · exact .inr (.inl ⟨hs, m, hp, runMicroStep_next_iff.1 hm⟩)
  · exact .inr (.inr hf)

theorem Effect.env_rst {m : MicroStep} {s t : State} (h : Effect s m t) :
    t.env.rst = s.env.rst := by
  cases h <;> simp [busAction_env_rst]

/-- A micro-step that leaves the engine at work gives no response. -/
theorem Effect.silent_of_not_idle {m : MicroStep} {s t : State} (h : Effect s m t)
    (ht : t.engState ≠ .idle) : t.rspData = s.rspData ∧ t.responses = s.responses := by
  cases hm : completes m with
  | true => exact absurd (h.responds hm).1 ht
  | false =>
    obtain ⟨-, hrsp, hdata⟩ := h.silent hm
    exact ⟨hdata, hrsp⟩

/-- The frame every command has. -/
theorem exec_frame {i : Instr} {s t : State} (h : exec i s = .next t) :
    t.cmd = s.cmd ∧ t.sdaLatch = s.sdaLatch ∧ t.env.rst = s.env.rst ∧ t.env.cmd = s.env.cmd
    ∧ (s.engState ≠ .idle → SameFaultRecord s t)
    ∧ (t.engState ≠ .idle → t.rspData = s.rspData ∧ t.responses = s.responses)
    ∧ (s.engState = .idle → SamePins s t ∧ SameEngineState s t ∧ t.init = s.init) := by
  have hlatch := exec_sdaLatch h
  obtain ⟨hs, ht⟩ | ⟨hs, m, -, he⟩ | ⟨hs, rfl⟩ := exec_kinds h
  · rw [ht]
    exact ⟨rfl, rfl, rfl, rfl, fun h => absurd hs h, fun _ => ⟨rfl, rfl⟩,
      fun _ => ⟨⟨rfl, rfl, rfl, rfl, rfl⟩, ⟨fun _ => rfl, rfl, rfl, rfl⟩, rfl⟩⟩
  · obtain ⟨hoffer, hcmd, hfault, hcode, hword⟩ := he.port
    exact ⟨hcmd, hlatch, he.env_rst, hoffer, fun _ => ⟨hfault, hcode, hword⟩,
      he.silent_of_not_idle, by simp [hs]⟩
  · exact ⟨rfl, rfl, rfl, rfl, fun _ => ⟨rfl, rfl, rfl⟩, fun _ => ⟨rfl, rfl⟩, by simp [hs]⟩

/-! ### The machine's runs of a command (R160) -/

theorem rstNow_eq_false {s : State} (hr : s.env.rst = []) : rstNow s = false := by
  simp [rstNow, hr]

theorem rstNext_eq_self {s : State} (hr : s.env.rst = []) : rstNext s = s := by
  have ht : s.env.rst.tail = s.env.rst := by rw [hr]; rfl
  rw [rstNext, ht]

/-- With no reset planned a step of the machine is the engine's. -/
theorem step_of_no_reset {s : State} (hr : s.env.rst = []) : step s = engineStep s := by
  rw [step_eq_engineStep (rstNow_eq_false hr), rstNext_eq_self hr]

theorem coreRun_succ {k : Nat} {s t : State} (h : step s = .next t) :
    Host.Core.run core (k + 1) s = Host.Core.run core k t := by
  have h' : core.step s = .next t := h
  simp only [Host.Core.run, h']

theorem execRun_succ_next {i : Instr} {k : Nat} {s t : State} (h : execRun i (k + 1) s = .next t) :
    ∃ u, exec i s = .next u ∧ execRun i k u = .next t := by
  cases hx : exec i s with
  | next u => exact ⟨u, rfl, by rwa [execRun_succ hx] at h⟩
  | fault r => simp [execRun, hx] at h
  | refused r => simp [execRun, hx] at h

/-- The machine runs the command in its latch while the engine stays busy. -/
theorem coreRun_of_latched {i : Instr} {k : Nat} {s t : State} (hr : s.env.rst = [])
    (hd : decode s.cmd = .ok i) (h : execRun i k s = .next t)
    (hb : ∀ j u, j < k → execRun i j s = .next u → u.engState = .busy) :
    Host.Core.run core k s = .next t := by
  induction k generalizing s with
  | zero => exact h
  | succ k ih =>
    obtain ⟨u, hx, hrun⟩ := execRun_succ_next h
    obtain ⟨hcmd, -, hrst, -⟩ := exec_frame hx
    have hstep : step s = .next u := by
      rw [step_of_no_reset hr, engineStep_runsLatch (hb 0 s (by omega) rfl) hd, hx]
    rw [coreRun_succ hstep]
    exact ih (hrst.trans hr) (hcmd ▸ hd) hrun fun j v hj hv =>
      hb (j + 1) v (by omega) ((execRun_succ hx).trans hv)

/-- Settles O58: the first step accepts the offer, and the latch holds its word from then on. -/
theorem machineRunIsTheCommandsRun : Obligations.MachineRunIsTheCommandsRun := by
  intro s t w i k hr hs hw hd hk h hb
  obtain ⟨k, rfl⟩ := Nat.exists_eq_add_of_le' hk
  obtain ⟨u, hx, hrun⟩ := execRun_succ_next h
  obtain ⟨hcmd, -, hrst, -⟩ := exec_frame hx
  have hstep : step s = .next u := by
    rw [step_of_no_reset hr, engineStep_accepts hs hw hd, hx]
  refine (coreRun_succ hstep).trans (coreRun_of_latched (hrst.trans hr) ?_ hrun fun j v hj hv => ?_)
  · rw [hcmd]; exact hd
  · exact hb (j + 1) v (by omega) (by omega) ((execRun_succ hx).trans hv)

/-! ### REQUEST_FROM (R169) -/

/-- Only BEGIN switches the clock line's direction. -/
theorem begin_of_setSclDir {i : Instr} {u : Nat} {d : Dir} {k : After}
    (h : procedureOf i u = some (.bus (.setSclDir d) k)) : i = .begin := by
  cases procedureOf_own h rfl (by simp [readBit, act]) with
  | sclOut => rfl

/-- Only BEGIN writes INIT or the clock line's direction. -/
theorem Effect.init_sclOe {i : Instr} {m : MicroStep} {s t : State} (h : Effect s m t)
    (hp : procedureOf i s.upc = some m) (hi : i ≠ .begin) :
    t.init = s.init ∧ t.sclOe = s.sclOe := by
  cases h with
  | bus a k =>
    have ha : ∀ d, a ≠ .setSclDir d := by
      rintro d rfl
      exact hi (begin_of_setSclDir hp)
    simp [busAction_sclOe s ha]
  | setInit => exact absurd (procedureOf_setInit hp).1 hi
  | openRead | storeByte | respond | drained | unread | read => simp

theorem exec_init_sclOe {i : Instr} {s t : State} (h : exec i s = .next t) (hi : i ≠ .begin) :
    t.init = s.init ∧ t.sclOe = s.sclOe := by
  obtain ⟨-, ht⟩ | ⟨-, m, hp, he⟩ | ⟨-, rfl⟩ := exec_kinds h
  · rw [ht]; exact ⟨rfl, rfl⟩
  · exact he.init_sclOe hp hi
  · exact ⟨rfl, rfl⟩

/-- Only the first line of REQUEST_FROM writes its registers, and beside it only a store writes a
byte, the one at its index. -/
theorem Effect.requestFrom_registers {a : Byte} {n : Nat} {m : MicroStep} {s t : State}
    (h : Effect s m t) (hp : procedureOf (.requestFrom a n) s.upc = some m)
    (hm : m ≠ .openRead n) :
    t.hasUnread = s.hasUnread ∧ t.rdCursor = s.rdCursor ∧ t.expLen = s.expLen
      ∧ ∀ j, m ≠ .storeByte j → t.rxbuf.read j = s.rxbuf.read j := by
  cases h with
  | openRead n' =>
    obtain ⟨-, b, hb⟩ := procedureOf_openRead hp
    cases hb; exact absurd rfl hm
  | storeByte i hi =>
    refine ⟨rfl, rfl, rfl, fun j hj => Memory.read_write_ne _ ?_⟩
    rintro rfl; exact hj rfl
  | drained | unread => cases (procedureOf_available hp).1
  | read => cases (procedureOf_read hp).1
  | bus | setInit | respond => simp

/-- Settles O55: the frame of every command, that of every command but BEGIN, and the registers of
REQUEST_FROM. -/
theorem requestFromFrame : Obligations.RequestFromFrame := by
  intro a n s t h
  obtain ⟨hcmd, hlatch, hrst, hoffer, hfault, hrsp, hidle⟩ := exec_frame h
  obtain ⟨hinit, hscl⟩ := exec_init_sclOe h nofun
  refine ⟨hinit, hcmd, hscl, hlatch, hrst, hoffer, hfault, hrsp, fun hs => ?_, fun hs hm => ?_⟩
  · obtain ⟨hpins, hengine, -⟩ := hidle hs
    exact ⟨hpins, hengine⟩
  · obtain ⟨hs', -⟩ | ⟨-, m, hp, he⟩ | ⟨hs', -⟩ := exec_kinds h
    · simp [hs] at hs'
    · have hp' : requestProcedure a n s.upc = some m := hp
      simp only [hp', ne_eq, Option.some.injEq] at hm ⊢
      exact he.requestFrom_registers hp hm
    · simp [hs] at hs'

/-- Settles O56: the store of pass `i` stands 64 micro-steps into it. -/
theorem requestFromStoresEachByte : Obligations.RequestFromStoresEachByte := by
  intro a n i s hi hn hb hu hwf
  have hp : requestProcedure a n s.upc = some (.storeByte i) := by
    rw [hu, requestProcedure_body a n i 64 hi (by decide), requestBody_store]
  have hread (j : Nat) := Memory.read_write i s.acc j hwf
  refine ⟨hp, _, exec_effect (i := .requestFrom a n) hb hp (.storeByte i (by omega)), ?_,
    fun j hj => ?_, rfl, rfl, rfl, ⟨rfl, rfl, rfl, rfl, rfl⟩, rfl⟩
  · exact (hread i).trans (if_pos rfl)
  · exact (hread j).trans (if_neg hj)

/-! ### BEGIN, BEGIN_TX, WRITE and END_TX (R160 to R168) -/

/-- The micro-step takes a Sample. -/
def samples : MicroStep → Bool
  | .bus .sample _ => true
  | _ => false

/-- The micro-step shifts a bit into the accumulator. -/
def shifts : MicroStep → Bool
  | .bus _ (.shift _) => true
  | _ => false

theorem not_shifts_of_bitLevel {m : MicroStep} (h : bitLevel m = true) : shifts m = false := by
  unfold bitLevel at h
  split at h
  · rfl
  · rfl
  · rfl
  · cases h

/-- BEGIN and END_TX take no Sample. -/
theorem procedureOf_not_samples {i : Instr} {u : Nat} {m : MicroStep}
    (h : procedureOf i u = some m) (hi : i = .begin ∨ i = .endTx) : samples m = false := by
  have hbegin : ∀ m ∈ beginProcedure, samples m = false := by decide
  have hend : ∀ m ∈ endTxProcedure, samples m = false := by decide
  obtain rfl | rfl := hi
  · exact hbegin m (List.mem_of_getElem? h)
  · exact hend m (List.mem_of_getElem? h)

/-- The command is BEGIN, BEGIN_TX, WRITE or END_TX, a bus command that reads no bytes. -/
def IsBusWrite (i : Instr) : Prop :=
  i = .begin ∨ (∃ a, i = .beginTx a) ∨ (∃ d, i = .write d) ∨ i = .endTx

theorem IsBusWrite.not_shifts {i : Instr} {u : Nat} {m : MicroStep} (hi : IsBusWrite i)
    (h : procedureOf i u = some m) : shifts m = false := by
  have hlevels {ms : List MicroStep} (hl : ms.all bitLevel = true) : ∀ m ∈ ms, shifts m = false :=
    fun m hm => not_shifts_of_bitLevel (List.all_eq_true.1 hl m hm)
  have hack : ∀ m ∈ waitAck ++ [.respond 0#8], shifts m = false := by decide
  obtain rfl | ⟨a, rfl⟩ | ⟨d, rfl⟩ | rfl := hi
  · have hbegin : ∀ m ∈ beginProcedure, shifts m = false := by decide
    exact hbegin m (List.mem_of_getElem? h)
  · have hbeginTx : ∀ m ∈ beginTxProcedure a, shifts m = false := by
      rw [beginTxProcedure_eq, List.forall_mem_append]
      exact ⟨hlevels (beginTxOpening_levels a), hack⟩
    exact hbeginTx m (List.mem_of_getElem? h)
  · have hwrite : ∀ m ∈ writeProcedure d, shifts m = false := by
      rw [writeProcedure, List.append_assoc, List.forall_mem_append]
      exact ⟨hlevels (writeBits_levels d 8), hack⟩
    exact hwrite m (List.mem_of_getElem? h)
  · have hend : ∀ m ∈ endTxProcedure, shifts m = false := by decide
    exact hend m (List.mem_of_getElem? h)

theorem afterAction_b (k : After) (s : State) : (afterAction k s).b = s.b := by
  rw [afterAction_frame]

/-- The micro-steps of these commands leave the Engine State and `acc`; without a Sample they leave
`b` and the environment's plan too. -/
theorem IsBusWrite.effect_registers {i : Instr} {m : MicroStep} {s t : State} (hi : IsBusWrite i)
    (hp : procedureOf i s.upc = some m) (h : Effect s m t) :
    SameEngineState s t ∧ t.acc = s.acc ∧ (samples m = false → t.b = s.b ∧ t.env = s.env) := by
  cases h with
  | bus a k =>
    have hk : ∀ j, k ≠ .shift j := by
      rintro j rfl
      cases hi.not_shifts hp
    refine ⟨⟨fun j => by simp, by simp, by simp, by simp⟩, ?_, fun hs => ?_⟩
    · rw [afterAction_acc _ hk, busAction_acc]
    · have ha : a ≠ .sample := by rintro rfl; cases hs
      rw [afterAction_b, afterAction_env]
      exact busAction_no_sample s ha
  | setInit | respond => exact ⟨⟨fun _ => rfl, rfl, rfl, rfl⟩, rfl, fun _ => ⟨rfl, rfl⟩⟩
  | openRead => obtain ⟨-, a, rfl⟩ := procedureOf_openRead hp; simp [IsBusWrite] at hi
  | storeByte => obtain ⟨-, a, n, rfl, -⟩ := procedureOf_storeByte hp; simp [IsBusWrite] at hi
  | drained | unread => obtain ⟨rfl, -⟩ := procedureOf_available hp; simp [IsBusWrite] at hi
  | read => obtain ⟨rfl, -⟩ := procedureOf_read hp; simp [IsBusWrite] at hi

theorem IsBusWrite.exec_registers {i : Instr} {s t : State} (hi : IsBusWrite i)
    (h : exec i s = .next t) :
    SameEngineState s t ∧ t.acc = s.acc ∧ (i = .begin ∨ i = .endTx → t.b = s.b ∧ t.env = s.env) := by
  obtain ⟨-, ht⟩ | ⟨-, m, hp, he⟩ | ⟨-, rfl⟩ := exec_kinds h
  · rw [ht]; exact ⟨⟨fun _ => rfl, rfl, rfl, rfl⟩, rfl, fun _ => ⟨rfl, rfl⟩⟩
  · obtain ⟨hengine, hacc, hsample⟩ := hi.effect_registers hp he
    exact ⟨hengine, hacc, fun hi => hsample (procedureOf_not_samples hp hi)⟩
  · exact ⟨⟨fun _ => rfl, rfl, rfl, rfl⟩, rfl, fun _ => ⟨rfl, rfl⟩⟩

/-- BEGIN has no check and takes no fault. -/
theorem exec_begin_faultRecord {s t : State} (h : exec .begin s = .next t) :
    SameFaultRecord s t := by
  by_cases hs : s.engState = .idle
  · rw [exec_idle_start (i := .begin) hs rfl] at h
    cases h; exact ⟨rfl, rfl, rfl⟩
  · obtain ⟨-, -, -, -, hfault, -⟩ := exec_frame h
    exact hfault hs

/-- Settles O54: the frame of every command, that of every command but BEGIN, and that of the four
commands. -/
theorem busWriteCommandsFrame : Obligations.BusWriteCommandsFrame := by
  intro i s t (hi : IsBusWrite i) h
  obtain ⟨hcmd, hlatch, hrst, hoffer, hfault, hrsp, hidle⟩ := exec_frame h
  obtain ⟨hengine, hacc, hsample⟩ := hi.exec_registers h
  refine ⟨hengine, hcmd, hacc, hlatch, hrst, hoffer, exec_init_sclOe h, hsample, ?_, hrsp,
    fun hs => ?_⟩
  · rintro (rfl | hs)
    · exact exec_begin_faultRecord h
    · exact hfault hs
  · obtain ⟨hpins, -, hinit⟩ := hidle hs
    exact ⟨hpins, hinit⟩

end Sys2Proof.Machine
end

section
/-! The receive buffer commands AVAILABLE and READ (44_receive_buffer.md R190 to R195): their runs
from acceptance to response, what they return, and what they leave unchanged. -/

namespace Sys2Proof.Machine

/-! ### READ (R192, R193) -/

/-- READ with no byte left faults. -/
theorem exec_readPastEnd {s : State} (hs : s.engState = .idle) (hc : s.expLen ≤ s.rdCursor) :
    exec .read s = .next { s with
      fault := true, faultCode := 4#4, faultCmd := s.cmd, engState := .faulted } :=
  exec_idle_fault (c := .readPastEnd) hs (by simp [checkOf, readCheck, State.pastEnd, hc])

/-- Settles O49: the check of READ is its only condition, and fault entry its only effect. -/
theorem readPastEndFaults : Obligations.ReadPastEndFaults :=
  fun _ => exec_readPastEnd

/-- A cursor below the length advances without wrapping. -/
theorem toNat_cursor_succ {c n : BitVec 8} (h : c < n) : (c + 1#8).toNat = c.toNat + 1 := by
  bv_omega

/-- Settles O48: `readLine` of the accepted command is the state READ ends in. -/
theorem readCompletes : Obligations.ReadCompletes := by
  intro s hs hc hl
  exact ⟨exec_accepts hs (readCheck_eq_none.2 hc), execRun_read hs hc hl, toNat_cursor_succ hc,
    rfl, fun _ => exec_readPastEnd⟩

/-! ### AVAILABLE (R190, R191) -/

/-- AVAILABLE runs to its response from every idle block. -/
theorem execRun_available {s : State} (hs : s.engState = .idle) :
    execRun .available 2 s = .next (availableLine (startCommand s)) := by
  have hstart : exec .available s = .next (startCommand s) := exec_idle_start hs rfl
  have hline : exec .available (startCommand s) = .next (availableLine (startCommand s)) :=
    exec_busy (m := .available) rfl rfl
  rw [execRun_succ hstart, execRun_succ hline, execRun_zero]

/-- AVAILABLE of a drained buffer clears the flag and responds 0. -/
theorem execRun_available_drained {s : State} (hs : s.engState = .idle)
    (hd : s.rdCursor = s.expLen) :
    execRun .available 2 s = .next (respond 0x00#8 { s with hasUnread := false }) := by
  rw [execRun_available hs, availableLine_drained (s := startCommand s) hd]; rfl

/-- AVAILABLE with a byte left responds 1. -/
theorem execRun_available_unread {s : State} (hs : s.engState = .idle)
    (hd : s.rdCursor ≠ s.expLen) : execRun .available 2 s = .next (respond 0x01#8 s) := by
  rw [execRun_available hs, availableLine_unread (s := startCommand s) hd]; rfl

/-- Settles O47: the acceptance without a check, and the two outcomes of AVAILABLE's line. -/
theorem availableCompletes : Obligations.AvailableCompletes := by
  intro s hs
  exact ⟨exec_accepts hs rfl, execRun_available_drained hs, execRun_available_unread hs, rfl⟩

/-- Settles O50: a drained buffer is drained again, and one with a byte left has its flag set by
the invariant (10_state.md R35c). -/
theorem availableIsIdempotent : Obligations.AvailableIsIdempotent := by
  intro s t u hinv hs ht hu
  by_cases hd : s.rdCursor = s.expLen
  · rw [execRun_available_drained hs hd] at ht
    cases ht
    rw [execRun_available_drained (s := respond 0x00#8 { s with hasUnread := false }) rfl hd] at hu
    cases hu
    exact ⟨rfl, rfl, rfl, rfl, rfl⟩
  · rw [execRun_available_unread hs hd] at ht
    cases ht
    rw [execRun_available_unread (s := respond 0x01#8 s) rfl hd] at hu
    cases hu
    have hflag : s.hasUnread = true := by
      rw [← Bool.not_eq_false]
      exact fun hf => hd (hinv.flagClear hf)
    exact ⟨by simp [hflag], rfl, rfl, rfl, rfl⟩

/-! ### AVAILABLE and READ in a row (R194, R195) -/

/-- Settles O51: REQUEST_FROM leaves the cursor at 0 and the length `N`, `m` READs leave the cursor
at `m`, and AVAILABLE compares the two. -/
theorem availableCountsTheReads : Obligations.AvailableCountsTheReads := by
  intro s a k m bytes rest hs hi hn h hm
  have hlen : (afterRequestFrom a k bytes rest s).expLen.toNat = bytes.length := toNat_lengthReg hn
  have hstart : (afterRequestFrom a k bytes rest s).rdCursor.toNat = 0 := rfl
  obtain ⟨t, ht, hidle, hcur, hexp, -⟩ := readTimes_next (k := m)
    (s := afterRequestFrom a k bytes rest s) rfl (by omega) (by omega)
  rw [hstart, Nat.zero_add] at hcur
  have hdrained : t.rdCursor = t.expLen ↔ m = bytes.length := by
    rw [← BitVec.toNat_inj, hcur, hexp, hlen]
  refine ⟨_, t, availableLine (startCommand t), execRun_requestFrom hs hi hn h, rfl, rfl, ht,
    execRun_available hidle, hcur, ?_⟩
  by_cases hd : t.rdCursor = t.expLen
  · have hnot : ¬ m < bytes.length := by have := hdrained.1 hd; omega
    rw [availableLine_drained (s := startCommand t) hd, if_neg hnot]; rfl
  · have hlt : m < bytes.length := Nat.lt_of_le_of_ne hm (mt hdrained.2 hd)
    rw [availableLine_unread (s := startCommand t) hd, if_pos hlt]; rfl

/-- Settles O53: a response 1 says that cursor and length differ, so that under the invariant a byte
is left (10_state.md R35a). -/
theorem gatedReadDoesNotFault : Obligations.GatedReadDoesNotFault := by
  intro s t hinv hs ht hrsp
  have hd : s.rdCursor ≠ s.expLen := by
    intro hd
    rw [execRun_available_drained hs hd] at ht
    cases ht
    simp at hrsp
  rw [execRun_available_unread hs hd] at ht
  cases ht
  have hle := hinv.cursorInRange
  have hlt : s.rdCursor < s.expLen := by bv_omega
  have hfault : s.fault = false := by
    rw [← Bool.not_eq_true, ← hinv.faultState, hs]; decide
  exact ⟨_, execRun_read (s := respond 0x01#8 s) rfl hlt hinv.lengthInRange, hfault, rfl⟩

/-! ### Frames -/

/-- AVAILABLE's procedure is its one line. -/
theorem eq_available_of_procedureOf {u : Nat} {m : MicroStep}
    (h : procedureOf .available u = some m) : m = .available :=
  List.mem_singleton.1 (List.mem_of_getElem? h)

/-- READ's procedure is its one line. -/
theorem eq_read_of_procedureOf {u : Nat} {m : MicroStep} (h : procedureOf .read u = some m) :
    m = .read :=
  List.mem_singleton.1 (List.mem_of_getElem? h)

/-- Everything a step of AVAILABLE can write: the flag, the response registers, and the engine's
state and position. Its acceptance takes no fault. -/
theorem exec_available_frame {s t : State} (h : exec .available s = .next t) :
    t = { s with
      hasUnread := t.hasUnread, rspData := t.rspData, responses := t.responses
      engState := t.engState, upc := t.upc } := by
  by_cases hs : s.engState = .idle
  · rw [exec_idle_start (i := .available) hs rfl] at h
    cases h; rfl
  · obtain ⟨hs', -⟩ | ⟨-, m, hp, he⟩ | ⟨-, rfl⟩ := exec_kinds h
    · exact absurd hs' hs
    · cases eq_available_of_procedureOf hp
      cases he with
      | drained | unread => rfl
    · rfl

/-- Everything a step of READ can write: the cursor, the response registers, the engine's state and
position, and the fault record. -/
theorem exec_read_frame {s t : State} (h : exec .read s = .next t) :
    t = { s with
      rdCursor := t.rdCursor, rspData := t.rspData, responses := t.responses
      engState := t.engState, upc := t.upc, fault := t.fault, faultCode := t.faultCode
      faultCmd := t.faultCmd } := by
  obtain ⟨-, ht⟩ | ⟨-, m, hp, he⟩ | ⟨-, rfl⟩ := exec_kinds h
  · rw [ht]
  · cases eq_read_of_procedureOf hp
    cases he with
    | read => rfl
  · rfl

/-- Settles O57: what each of the two commands can write, and for an acceptance and for READ's fault
record the frame of every command. -/
theorem bufferCommandsFrame : Obligations.BufferCommandsFrame := by
  intro i s t hi h
  obtain ⟨-, -, -, -, hfault, -⟩ := exec_frame h
  have hidle (hs : s.engState = .idle) :
      SameEngineState s t ∧ t.rspData = s.rspData ∧ t.responses = s.responses := by
    rw [exec_idle_frame hs h]; exact ⟨⟨fun _ => rfl, rfl, rfl, rfl⟩, rfl, rfl⟩
  obtain rfl | rfl := hi
  · rw [exec_available_frame h] at hidle ⊢
    exact ⟨⟨rfl, rfl, rfl, rfl, rfl⟩, fun _ => rfl, rfl, rfl, rfl, rfl, rfl, rfl, rfl,
      fun _ => rfl, nofun, fun _ => ⟨rfl, rfl, rfl⟩, hidle⟩
  · rw [exec_read_frame h] at hidle hfault ⊢
    exact ⟨⟨rfl, rfl, rfl, rfl, rfl⟩, fun _ => rfl, rfl, rfl, rfl, rfl, rfl, rfl, rfl,
      nofun, fun _ => rfl, fun hs => hfault (hs.resolve_left nofun), hidle⟩

end Sys2Proof.Machine
end

section
/-! Exceptions (60_exceptions.md R211 to R215): acceptance and its checks in order, fault entry, the
faulted state, and that no step from the invariant stops the machine. -/

namespace Sys2Proof.Machine

/-! ### A step with reset low, by what the engine does -/

section
variable {s : State} {w : Word} {i : Instr} {e : Illegal}

theorem step_accepts (hr : rstNow s = false) (hs : s.engState = .idle) (hw : offered s = some w)
    (hd : decode w = .ok i) : step s = exec i (latchCommand w (rstNext s)) := by
  rw [step_eq_engineStep hr]
  exact engineStep_accepts (s := rstNext s) hs hw hd

/-- R212: an offered word that does not decode takes its fault in the step that latches it. -/
theorem engineStep_illegal (hs : s.engState = .idle) (hw : offered s = some w)
    (hd : decode w = .error e) :
    engineStep s = .next (raiseFault .illegalCommand (latchCommand w s)) := by
  simp [engineStep, accept, hs, hw, hd]

theorem step_illegal (hr : rstNow s = false) (hs : s.engState = .idle) (hw : offered s = some w)
    (hd : decode w = .error e) :
    step s = .next (raiseFault .illegalCommand (latchCommand w (rstNext s))) := by
  rw [step_eq_engineStep hr]
  exact engineStep_illegal (s := rstNext s) hs hw hd

theorem step_runsLatch (hr : rstNow s = false) (hs : s.engState = .busy)
    (hd : decode s.cmd = .ok i) : step s = exec i (rstNext s) := by
  rw [step_eq_engineStep hr]
  exact engineStep_runsLatch (s := rstNext s) hs hd

/-- R215: only the plan of `rst` goes on. -/
theorem step_faulted (hr : rstNow s = false) (hs : s.engState = .faulted) :
    step s = .next (rstNext s) := by
  have hs' : (rstNext s).engState = .faulted := hs
  rw [step_eq_engineStep hr, engineStep, hs']

theorem step_reset (hr : rstNow s = true) : step s = .next (applyReset (rstNext s)) := by
  rw [step, hr, if_pos rfl]

end

/-! ### The checks in order (R211, R212, R214) -/

/-- A command that fails none of the three tests of R212 passes its check. -/
theorem checkOf_eq_none {i : Instr} {s : State} (hb : ¬ (isBusCommand i = true ∧ s.init = false))
    (hl : ¬ lengthOver i = true) (hc : ¬ (i = .read ∧ s.expLen ≤ s.rdCursor)) :
    checkOf i s = none := by
  cases i with
  | begin | available => rfl
  | beginTx | write | endTx => exact initCheck_eq_none.2 (by simpa [isBusCommand] using hb)
  | requestFrom a n =>
    exact requestCheck_eq_none.2
      ⟨by simpa [isBusCommand] using hb, by simpa [lengthOver] using hl⟩
  | read => exact readCheck_eq_none.2 (by simpa using hc)

/-- Only REQUEST_FROM has a length to check. -/
theorem requestFrom_of_lengthOver {i : Instr} (h : lengthOver i = true) :
    ∃ a n, i = .requestFrom a n ∧ 248 < n := by
  cases i with
  | requestFrom a n => exact ⟨a, n, rfl, by simpa [lengthOver] using h⟩
  | begin | beginTx | write | endTx | available | read => cases h

/-- Settles O11: an illegal word faults; a command takes the fault of the first test that fails, or
starts. -/
theorem acceptanceChecksInOrder : Obligations.AcceptanceChecksInOrder := by
  intro s w hr hs hw
  cases hd : decode w with
  | error e => exact step_illegal hr hs hw hd
  | ok i =>
    rw [step_accepts hr hs hw hd]
    dsimp only
    split
    · next hb => exact exec_notInitialized hb.1 hs hb.2
    · next hb =>
      split
      · next hl =>
        obtain ⟨a, n, rfl, hn⟩ := requestFrom_of_lengthOver hl
        exact exec_lengthTooLarge hs (by simpa [isBusCommand] using hb) hn
      · next hl =>
        split
        · next hc =>
          obtain ⟨rfl, hc⟩ := hc
          exact exec_readPastEnd hs hc
        · next hc => exact exec_accepts hs (checkOf_eq_none hb hl hc)

/-! ### Fault entry and the faulted state (R213, R215) -/

/-- Settles O12: fault entry by definition, STATUS by its bits. -/
theorem faultEntryWritesOnlyTheRecord : Obligations.FaultEntryWritesOnlyTheRecord :=
  ⟨fun _ _ => rfl, fun c s => ⟨getLsbD_status (raiseFault c s) 3, status_faultCode (raiseFault c s)⟩,
    rfl, rfl, rfl, rfl⟩

/-- R213: an acceptance that ends FAULTED is a fault entry on the latched word. -/
theorem eq_raiseFault_of_step {s t : State} {w : Word} (hr : rstNow s = false)
    (hs : s.engState = .idle) (hw : offered s = some w) (h : step s = .next t)
    (ht : t.engState = .faulted) : ∃ c, t = raiseFault c (latchCommand w (rstNext s)) := by
  cases hd : decode w with
  | error e =>
    rw [step_illegal hr hs hw hd] at h
    cases h
    exact ⟨_, rfl⟩
  | ok i =>
    have hl : (latchCommand w (rstNext s)).engState = .idle := hs
    rw [step_accepts hr hs hw hd] at h
    cases hc : checkOf i (latchCommand w (rstNext s)) with
    | some c =>
      rw [exec_idle_fault hl hc] at h
      cases h
      exact ⟨c, rfl⟩
    | none =>
      rw [exec_idle_start hl hc] at h
      cases h
      cases ht

/-- Settles O13: neither the latching of the word nor fault entry writes what R213 names. -/
theorem faultedCommandHasNoEffect : Obligations.FaultedCommandHasNoEffect := by
  intro s t w hr hs hw h ht
  obtain ⟨c, rfl⟩ := eq_raiseFault_of_step hr hs hw h ht
  obtain ⟨hlo, hhi⟩ := c.code_range
  exact ⟨rfl, rfl, hlo, hhi, ⟨fun _ => rfl, rfl, rfl, rfl⟩, rfl, ⟨rfl, rfl, rfl, rfl, rfl⟩, rfl, rfl⟩

/-- Settles O14: the step of a faulted engine. -/
theorem faultedBlockDoesNotChange : Obligations.FaultedBlockDoesNotChange := by
  intro s hr hs
  exact ⟨by simp [State.cmdReady, hs], rstNext s, step_faulted hr hs, rfl, rfl⟩

/-! ### Progress (R212, 40_line_control.md R108, 20_memory.md R60) -/

/-- A running command's micro-step has an effect: a store stays below the accepted length, and a
READ below `EXP_LEN`, both at most 248. -/
theorem exists_effect {i : Instr} {m : MicroStep} {s : State} (hp : procedureOf i s.upc = some m)
    (hu : Underway s i) (hl : s.expLen.toNat ≤ 248) : ∃ t, Effect s m t := by
  cases m with
  | bus a k => exact ⟨_, .bus a k⟩
  | openRead n => exact ⟨_, .openRead n⟩
  | storeByte j =>
    obtain ⟨-, a, n, rfl, hj⟩ := procedureOf_storeByte hp
    obtain ⟨-, hn, -⟩ := hu
    exact ⟨_, .storeByte j (by omega)⟩
  | setInit => exact ⟨_, .setInit⟩
  | respond v => exact ⟨_, .respond v⟩
  | available =>
    by_cases hd : s.rdCursor = s.expLen
    · exact ⟨_, .drained hd⟩
    · exact ⟨_, .unread hd⟩
  | read =>
    obtain ⟨rfl, -⟩ := procedureOf_read hp
    have hlt : s.rdCursor < s.expLen := hu
    exact ⟨_, .read (by bv_omega)⟩

/-- Settles O18: a reset, a wait and an acceptance always answer a next state, a faulted engine stays,
and a busy one is at a micro-step that has an effect. -/
theorem noStepStops : Obligations.NoStepStops := by
  intro s h
  cases hr : rstNow s with
  | true => exact ⟨_, step_reset hr⟩
  | false =>
    cases hs : s.engState with
    | idle =>
      cases hw : offered s with
      | none => exact ⟨_, idleBlockWaits s hr hs hw⟩
      | some w => exact ⟨_, acceptanceChecksInOrder s w hr hs hw⟩
    | busy =>
      obtain ⟨i, hd, hpos, hu⟩ := h.running hs
      obtain ⟨m, hp⟩ := Option.isSome_iff_exists.1 hpos
      obtain ⟨t, he⟩ := exists_effect (s := rstNext s) hp hu h.lengthInRange
      exact ⟨t, (step_runsLatch hr hs hd).trans (exec_effect (s := rstNext s) hs hp he)⟩
    | faulted => exact ⟨_, step_faulted hr hs⟩

end Sys2Proof.Machine
end

section
/-! Reset and timing (70_reset_and_hazards.md R240 to R259): the reset values, and the minimum
durations of the sequences, each the sum of the waits in the trace its run adds. -/

namespace Sys2Proof.Machine

/-! ### Reset (R240, R242) -/

/-- Settles O6: the values of the reset state. -/
theorem resetLeavesTheBlockIdleAndEmpty : Obligations.ResetLeavesTheBlockIdleAndEmpty :=
  ⟨rfl, rfl, rfl, rfl, rfl, rfl, rfl, rfl, rfl, rfl, Memory.read_nil⟩

theorem status_applyReset (s : State) : (applyReset s).status = 0x00#8 := by
  show State.reset.status = 0x00#8
  rfl

/-- Settles O7: with reset high the step is the reset, whatever the engine was doing. -/
theorem resetWinsInEveryState : Obligations.ResetWinsInEveryState := by
  intro s hr
  exact ⟨applyReset (rstNext s), step_reset hr, Memory.read_nil, rfl, rfl, rfl, rfl, rfl, rfl, rfl,
    rfl, rfl, status_applyReset _, rfl, rfl, rfl, rfl, rfl, rfl, rfl, rfl⟩

/-! ### The minimum duration of a trace (R256) -/

section
variable (H S : Nat)

theorem minDuration_append (es fs : List Event) :
    minDuration H S (es ++ fs) = minDuration H S es + minDuration H S fs := by
  fun_induction minDuration H S es with
  | case1 => simp
  | case2 es ih => simp [minDuration, ih, Nat.add_assoc]
  | case3 es ih => simp [minDuration, ih, Nat.add_assoc]
  | case4 e es hh hs ih => rw [List.cons_append, minDuration.eq_4 H S e (es ++ fs) hh hs, ih]

theorem minDuration_flatten (ess : List (List Event)) :
    minDuration H S ess.flatten = (ess.map (minDuration H S)).sum := by
  induction ess with
  | nil => rfl
  | cons es ess ih => rw [List.flatten_cons, minDuration_append, ih, List.map_cons, List.sum_cons]

/-- Groups of events of the same duration, one per element of a list. -/
theorem minDuration_flatMap {α : Type} {f : α → List Event} {c : Nat}
    (hf : ∀ x, minDuration H S (f x) = c) (xs : List α) :
    minDuration H S (xs.flatMap f) = xs.length * c := by
  simp [List.flatMap_def, minDuration_flatten, Function.comp_def, hf]

/-! ### The durations of the event groups (R259) -/

@[simp] theorem minDuration_evBit (l : Level) : minDuration H S (evBit l) = H := rfl

@[simp] theorem minDuration_evReadBit (l : Level) : minDuration H S (evReadBit l) = H + S := rfl

@[simp] theorem minDuration_evStart : minDuration H S evStart = 3 * H + S := by
  simp [evStart, minDuration]; omega

@[simp] theorem minDuration_evStop : minDuration H S evStop = 3 * H + S := by
  simp [evStop, minDuration]; omega

@[simp] theorem minDuration_evByte (v : Byte) : minDuration H S (evByte v) = 8 * H :=
  minDuration_flatMap H S (minDuration_evBit H S) (bitsOf v)

@[simp] theorem minDuration_evReadByte (v : Byte) :
    minDuration H S (evReadByte v) = 8 * (H + S) :=
  minDuration_flatMap H S (minDuration_evReadBit H S) (bitsOf v)

@[simp] theorem minDuration_evAck (k : Nat) :
    minDuration H S (evAck k) = (k + 1) * (H + S) := by
  rw [evAck, minDuration_append, minDuration_flatMap H S (minDuration_evReadBit H S),
    List.length_replicate, minDuration_evReadBit, Nat.succ_mul]

@[simp] theorem minDuration_evBytes (bytes : List Byte) :
    minDuration H S (evBytes bytes) = bytes.length * (8 * (H + S) + H) := by
  induction bytes with
  | nil => simp [evBytes, minDuration]
  | cons v vs ih =>
    rw [evBytes_cons, minDuration_append, minDuration_append, minDuration_evReadByte,
      minDuration_evBit, ih, List.length_cons, Nat.succ_mul _ (8 * (H + S) + H), Nat.add_comm]

@[simp] theorem minDuration_evDummyClocks : minDuration H S evDummyClocks = 9 * (2 * H) := by
  rw [evDummyClocks, minDuration_flatten, List.map_replicate, List.sum_replicate]
  simp [minDuration, Nat.two_mul]

theorem minDuration_evBegin : minDuration H S evBegin = 21 * H + S := by
  simp [evBegin, minDuration_append, minDuration]; omega

theorem minDuration_evBeginTx (a : Byte) (k : Nat) :
    minDuration H S (evBeginTx a k) = (3 * H + S) + 8 * H + (k + 1) * (H + S) := by
  simp [evBeginTx, minDuration_append, Nat.add_assoc]

theorem minDuration_evWrite (d : Byte) (k : Nat) :
    minDuration H S (evWrite d k) = 8 * H + (k + 1) * (H + S) := by
  simp [evWrite, minDuration_append]

theorem minDuration_evRequestFrom (a : Byte) (k : Nat) (bytes : List Byte) :
    minDuration H S (evRequestFrom a k bytes)
      = 2 * (3 * H + S) + 8 * H + (k + 1) * (H + S) + bytes.length * (8 * (H + S) + H) := by
  simp [evRequestFrom, minDuration_append]; omega

/-! ### The runs add these events -/

/-- A ReadBit adds its events from every state, also behind the end of the environment's plan. -/
theorem exists_runSteps_readBit (s : State) : ∃ t, runSteps (readBit .nothing) s = .next t
    ∧ t.trace = (evReadBit (sdaIn s)).reverse ++ s.trace := by
  simp [readBit, act, sdaIn, evReadBit]

theorem addsWaits_readBit (s : State) :
    AddsWaits H S (H + S) s (runSteps (readBit .nothing) s) := by
  obtain ⟨t, ht, htrace⟩ := exists_runSteps_readBit s
  exact ⟨t, _, ht, htrace, minDuration_evReadBit H S (sdaIn s)⟩

/-- AVAILABLE waits for nothing, whether the buffer is drained or not. -/
theorem addsWaits_available {s : State} (hs : s.engState = .idle) :
    AddsWaits H S 0 s (execRun .available 2 s) := by
  by_cases hd : s.rdCursor = s.expLen
  · exact ⟨_, [], execRun_available_drained hs hd, rfl, rfl⟩
  · exact ⟨_, [], execRun_available_unread hs hd, rfl, rfl⟩

end

/-- Settles O59: each run adds the event group of its trace, whose waits are summed above. -/
theorem minimumDurations : Obligations.MinimumDurations := by
  intro H S s
  refine ⟨fun l => ⟨_, evBit l, runSteps_bitCycle l s, rfl, minDuration_evBit H S l⟩,
    addsWaits_readBit H S s,
    ⟨_, evStart, runSteps_start s, rfl, minDuration_evStart H S⟩,
    ⟨_, evStop, runSteps_stop s, rfl, minDuration_evStop H S⟩, fun hs => ?_, fun hs hi => ?_⟩
  · exact ⟨⟨_, evBegin, execRun_begin hs, rfl, minDuration_evBegin H S⟩,
      addsWaits_available H S hs,
      fun hc hl => ⟨_, [], execRun_read hs hc hl, rfl, rfl⟩⟩
  · exact ⟨⟨_, evStop, execRun_endTx hs hi, rfl, minDuration_evStop H S⟩,
      fun a k _ h => ⟨_, evBeginTx a k, execRun_beginTx hs hi h, rfl,
        minDuration_evBeginTx H S a k⟩,
      fun d k _ h => ⟨_, evWrite d k, execRun_write hs hi h, rfl, minDuration_evWrite H S d k⟩,
      fun a k bytes _ hn h => ⟨_, evRequestFrom a k bytes, execRun_requestFrom hs hi hn h, rfl,
        minDuration_evRequestFrom H S a k bytes⟩⟩

end Sys2Proof.Machine
end
